-- ==== Sys2Proof/Word.lean ====
section
/-! DEFINITION. The widths of the block (00_scope.md R10): bytes on the channel, 32-bit host registers, 16-bit device
register addresses and CRC values, 24-bit measurement fields. -/

namespace Sys2Proof

/-- One byte of a frame, of a buffer, an opcode, or a device address (R10, R12). -/
abbrev Byte := BitVec 8

/-- One host register (R10, R110). -/
abbrev Word := BitVec 32

/-- A 16-bit device register address, quantity field or CRC value (R10, R400). -/
abbrev Half := BitVec 16

/-- A measurement field as received (R10, R121, R122). -/
abbrev Meas24 := BitVec 24

end Sys2Proof
end

