-- ==== Sys2Proof/Syntax.lean ====
section
/-! DEFINITION. What can be said to the block: the seven commands (30_encoding.md R310), the host's register names and
lines (R110, R340, R341), the values on its input ports (R100, R101, R103), and the software methods above it
(45_host_adapter.md). Data only; what any of it means stands elsewhere. -/

namespace Sys2Proof

/-- The commands, one constructor per row of opcode_table.json (R310). CMD8 has no operand field: the operand of a SET
command is the ARG register (R300, R301), so no constructor carries one. -/
inductive Instr where
  | setPowerState
  | setMode
  | setVoltage
  | setCurrent
  | setResistance
  | setPower
  | getMeasurements
  deriving DecidableEq, Repr

/-- The settable quantities of the device register map (R480), one per SET command. -/
inductive Quantity where
  | onOff
  | mode
  | voltage
  | current
  | resistance
  | power
  deriving DecidableEq, Repr

/-- Why a CMD write selects no command (R311): its OP is reserved. -/
inductive IllegalCommand where
  | reservedOp (op : Byte)
  deriving DecidableEq, Repr

/-- The named host registers (R110); indices 0xC to 0xF are reserved and have no name. -/
inductive HostReg where
  | ctrl
  | devaddr
  | settle
  | gap
  | maxgap
  | arg
  | cmd
  | status
  | meas
  | measV
  | measI
  | rxlen
  deriving DecidableEq, Repr

/-- The host port's inputs in one step (R103). -/
structure HostPort where
  req   : Bool
  we    : Bool
  idx   : BitVec 4
  wdata : Word
  deriving DecidableEq, Repr, Inhabited

/-- The other inputs of one step: reset (R100) and the channel (R101). -/
structure Wires where
  rst     : Bool
  rxValid : Bool
  rxData  : Byte
  txReady : Bool
  deriving DecidableEq, Repr, Inhabited

/-- One line of a host program as the host presents it, a step each (R340), and the POLL line, which repeats a STATUS
read until one returns BUSY = 0 (R341). -/
inductive HostLine where
  | wr (idx : BitVec 4) (v : Word)
  | rd (idx : BitVec 4)
  | idle
  | poll
  deriving DecidableEq, Repr

/-- The way a source line names a register: by its name or by its index (R340). -/
inductive RegRef where
  | named (r : HostReg)
  | index (n : Nat)
  deriving DecidableEq, Repr

/-- A host program's source line (R340) or pseudo-instruction (R341): numbers are as written, so a line may be ill
formed (WellFormed.lean). -/
inductive SourceLine where
  | wr (reg : RegRef) (imm : Nat)
  | rd (reg : RegRef)
  | idle
  | poll
  | command (i : Instr) (x : Nat)
  deriving DecidableEq, Repr

/-- The four modes of the load (R15, R325): constant voltage, current, resistance, power. -/
inductive LoadMode where
  | cv
  | cc
  | cr
  | cw
  deriving DecidableEq, Repr

/-- A number a caller hands to the adapter: an integer, or a binary64 pattern (R603). -/
inductive CallerNum where
  | int (z : Int)
  | float (bits : BitVec 64)
  deriving DecidableEq, Repr

/-- The seven methods of the software interface (R605 to R611). -/
inductive Method where
  | setPowerState (on : Bool)
  | setMode (mode : CallerNum)
  | setVoltage (volts : CallerNum)
  | setCurrent (amps : CallerNum)
  | setResistance (ohms : CallerNum)
  | setPower (watts : CallerNum)
  | getMeasurements
  deriving DecidableEq, Repr

end Sys2Proof
end

