-- ==== Sys2Proof/Config.lean ====
section
/-! DEFINITION. What an instance of the block fixes (00_scope.md R9) and the free values the spec leaves open. Nothing here
has a value a proof can see, but RXBUF_DEPTH, which the spec gives. -/

namespace Sys2Proof

/-- The build parameters of R9. `F_CLK` is the rational number `fClkNum / fClkDen` of hertz (log 2). -/
structure Params where
  fClkNum      : Nat
  fClkDen      : Nat
  fcWrite      : Byte
  fcRead       : Byte
  rdBlock      : Half
  rdQty        : Half
  devaddrReset : Byte
  rxbufDepth   : Nat
  deriving DecidableEq, Repr

/-- One less than the numerator of F_CLK: R9 leaves it OPEN but positive (log 2). -/
opaque Config.fClkNumPred : Nat
/-- One less than the denominator of F_CLK (log 2). -/
opaque Config.fClkDenPred : Nat
/-- FC_WRITE, OPEN (R9, 92 D6; log 1). -/
opaque Config.fcWrite : Byte
/-- FC_READ, OPEN (R9, 92 D6; log 1). -/
opaque Config.fcRead : Byte
/-- RD_BLOCK, OPEN (R9, 92 D7; log 1). -/
opaque Config.rdBlock : Half
/-- RD_QTY, OPEN (R9, 92 D9; log 1). -/
opaque Config.rdQty : Half
/-- DEVADDR_RESET, OPEN (R9, 92 D27; log 1). -/
opaque Config.devaddrReset : Byte
/-- RXBUF_DEPTH: the spec's choice (R9, 92 D19; log 3). -/
def Config.rxbufDepth : Nat := 256

/-- The parameters of the instance that `State.reset` starts. -/
def Config.params : Params where
  fClkNum      := Config.fClkNumPred + 1
  fClkDen      := Config.fClkDenPred + 1
  fcWrite      := Config.fcWrite
  fcRead       := Config.fcRead
  rdBlock      := Config.rdBlock
  rdQty        := Config.rdQty
  devaddrReset := Config.devaddrReset
  rxbufDepth   := Config.rxbufDepth

/-- What `TXBUF[i]` holds before anything is written there: any value (R131, 93 U2; log 8). -/
opaque Config.txbufUnwritten : Nat → Byte
/-- What `RXBUF[i]` holds before anything is written there: any value (R132, 93 U2; log 8). -/
opaque Config.rxbufUnwritten : Nat → Byte
/-- The reset and channel inputs of step `n` when none is pending: any value (R16, R578, 93 U10; log 4). -/
opaque Config.freeWires : Nat → Wires
/-- The host's access in step `n` when no line is pending: any access or none (R16; log 4). -/
opaque Config.freeHostPort : Nat → HostPort
/-- `h_rdata` in a step `n` with a host write: R200 and R202 give it for the other steps only (log 7). -/
opaque Config.freeReadData : Nat → Word

end Sys2Proof
end

