-- ==== Sys2Proof/WellFormed.lean ====
section
/-! DEFINITION. The checks on terms that could be written but mean nothing: build parameters outside R9's ranges, and host
program lines whose register index or immediate does not fit its port (R103, R340). An `Instr` has no field and a
`HostLine` only fields of the ports' own widths, so every one of them is well formed. -/

namespace Sys2Proof

/-- R9: F_CLK is a positive number, RXBUF_DEPTH is at least 16. -/
def Params.wf (p : Params) : Bool :=
  decide (0 < p.fClkNum) && decide (0 < p.fClkDen) && decide (16 ≤ p.rxbufDepth)

/-- R103, R340: a register is one of the twelve names or an index of four bits. -/
def RegRef.wf : RegRef → Bool
  | .named _ => true
  | .index n => decide (n < 16)

/-- R340: an immediate has 32 bits. -/
def immWf (n : Nat) : Bool := decide (n < 2 ^ 32)

/-- R340, R341: a line whose register and immediate fit; GET_MEASUREMENTS has no operand, written 0. -/
def SourceLine.wf : SourceLine → Bool
  | .wr r imm => r.wf && immWf imm
  | .rd r => r.wf
  | .idle => true
  | .poll => true
  | .command .getMeasurements x => decide (x = 0)
  | .command _ x => immWf x

end Sys2Proof
end

