-- ==== Sys2Proof/Decode.lean ====
section
/-! DEFINITION. The command encoding CMD8 (30_encoding.md R300, R310, R311), read and written, and the host-line encoding of
R340 and R341. The decoder is total: a CMD word either selects a command or is rejected by its reserved OP. -/

namespace Sys2Proof

/-- The OP field of a CMD write: bits 7:0 (R300). Bits 31:8 are ignored. -/
def opField (w : Word) : Byte := w.extractLsb' 0 8

/-- The opcode map of R310, read: 0x00 and 0x08 to 0xFF select no command (R311). -/
def decodeOp (op : Byte) : Except IllegalCommand Instr :=
  match op.toNat with
  | 0x01 => .ok .setPowerState
  | 0x02 => .ok .setMode
  | 0x03 => .ok .setVoltage
  | 0x04 => .ok .setCurrent
  | 0x05 => .ok .setResistance
  | 0x06 => .ok .setPower
  | 0x07 => .ok .getMeasurements
  | _ => .error (.reservedOp op)

/-- The command a CMD write of `w` selects (R118, R300). -/
def decode (w : Word) : Except IllegalCommand Instr := decodeOp (opField w)

/-- The decoder on an instruction as the opcode table numbers its bits: CMD8 is one 32-bit host write, so the bits above
`nbits` are zeros of that word (log 15). -/
def decodeTableWord (nbits w : Nat) : Option Instr :=
  match decode (BitVec.ofNat 32 (w % 2 ^ nbits)) with
  | .ok i => some i
  | .error _ => none

/-- The opcode map of R310, written. -/
def opcode : Instr → Byte
  | .setPowerState => 0x01#8
  | .setMode => 0x02#8
  | .setVoltage => 0x03#8
  | .setCurrent => 0x04#8
  | .setResistance => 0x05#8
  | .setPower => 0x06#8
  | .getMeasurements => 0x07#8

/-- The CMD write that issues a command, its ignored bits written as zeros (R300). -/
def encode (i : Instr) : Word := (opcode i).setWidth 32

/-- The register at a host index (R110); none for the reserved indices 0xC to 0xF (R124). -/
def hostRegAt (idx : BitVec 4) : Option HostReg :=
  match idx.toNat with
  | 0x0 => some .ctrl
  | 0x1 => some .devaddr
  | 0x2 => some .settle
  | 0x3 => some .gap
  | 0x4 => some .maxgap
  | 0x5 => some .arg
  | 0x6 => some .cmd
  | 0x7 => some .status
  | 0x8 => some .meas
  | 0x9 => some .measV
  | 0xA => some .measI
  | 0xB => some .rxlen
  | _ => none

/-- The index of a named host register (R110). -/
def hostIdx : HostReg → BitVec 4
  | .ctrl => 0x0#4
  | .devaddr => 0x1#4
  | .settle => 0x2#4
  | .gap => 0x3#4
  | .maxgap => 0x4#4
  | .arg => 0x5#4
  | .cmd => 0x6#4
  | .status => 0x7#4
  | .meas => 0x8#4
  | .measV => 0x9#4
  | .measI => 0xA#4
  | .rxlen => 0xB#4

/-- The port values a host line presents in a step (R340). A read drives `h_wdata`, and an idle step `h_we`, `h_idx` and
`h_wdata`, at zeros that no rule reads (R200). A POLL line presents a STATUS read (R341). -/
def hostLinePort : HostLine → HostPort
  | .wr idx v => { req := true, we := true, idx := idx, wdata := v }
  | .rd idx => { req := true, we := false, idx := idx, wdata := 0#32 }
  | .idle => { req := false, we := false, idx := 0#4, wdata := 0#32 }
  | .poll => { req := true, we := false, idx := hostIdx .status, wdata := 0#32 }

/-- The index a source line's register stands for (R340). -/
def regRefIdx : RegRef → BitVec 4
  | .named r => hostIdx r
  | .index n => BitVec.ofNat 4 n

/-- The expansion of a command pseudo-instruction (R341). -/
def commandLines (i : Instr) (x : Word) : List HostLine :=
  match i with
  | .getMeasurements =>
    [.wr (hostIdx .cmd) (encode i), .poll, .rd (hostIdx .status),
      .rd (hostIdx .meas), .rd (hostIdx .measV), .rd (hostIdx .measI)]
  | _ =>
    [.wr (hostIdx .arg) x, .wr (hostIdx .cmd) (encode i), .poll, .rd (hostIdx .status)]

/-- A source line as host lines; an ill-formed one is refused (R340, R341). -/
def assembleLine (l : SourceLine) : Option (List HostLine) :=
  if l.wf then
    match l with
    | .wr r imm => some [.wr (regRefIdx r) (BitVec.ofNat 32 imm)]
    | .rd r => some [.rd (regRefIdx r)]
    | .idle => some [.idle]
    | .poll => some [.poll]
    | .command i x => some (commandLines i (BitVec.ofNat 32 x))
  else none

/-- A source program as host lines (R340); refused whole if any line is. -/
def assemble : List SourceLine → Option (List HostLine)
  | [] => some []
  | l :: ls =>
    match assembleLine l, assemble ls with
    | some xs, some ys => some (xs ++ ys)
    | _, _ => none

end Sys2Proof
end

