-- ==== Sys2Proof/Machine/ResetValues.lean ====
section
/-! DEFINITION. The two reset values that R9 computes from F_CLK. -/

namespace Sys2Proof.Machine

/-- `ceil(num / den)` for a positive `den`. -/
def ceilDiv (num den : Nat) : Nat := (num + den - 1) / den

/-- SETTLE_RESET = ceil(0.100 × F_CLK), in the 32 bits of SETTLE (R9, R114; log 2). -/
def settleReset (p : Params) : Word := BitVec.ofNat 32 (ceilDiv p.fClkNum (10 * p.fClkDen))

/-- GAP_RESET = ceil(0.050 × F_CLK), in the 32 bits of GAP (R9, R115; log 2). -/
def gapReset (p : Params) : Word := BitVec.ofNat 32 (ceilDiv p.fClkNum (20 * p.fClkDen))

end Sys2Proof.Machine
end

