-- ==== Sys2Proof/Machine/State.lean ====
section
/-! DEFINITION. The block's state (10_state.md), whole: host registers, internal state, the instance's parameters, and the
model's own fields for what stands outside the block. Reserved bits are not stored: they read 0 (R112 to R124). -/

namespace Sys2Proof.Machine

/-- The sequencing state PHASE (R130). The code 3 never occurs (R119), so it has no constructor. -/
inductive Phase where
  | idle
  | tx
  | wait
  deriving DecidableEq, Repr

/-- The result codes (R630). Code 7 is never written, so it has no constructor. -/
inductive Result where
  | none
  | ok
  | invalidInput
  | noReply
  | notConfirmed
  | invalidCmd
  | closed
  deriving DecidableEq, Repr

/-- CTRL (R112). -/
structure Ctrl where
  en    : Bool
  rxcrc : Bool
  echo  : Bool
  deriving DecidableEq, Repr

/-- The stored fields of STATUS (R119); STATUS.PHASE is a view of `State.phase`. -/
structure Status where
  busy    : Bool
  done    : Bool
  ovr     : Bool
  rxovf   : Bool
  expired : Bool
  result  : Result
  lastop  : Byte
  deriving DecidableEq, Repr

/-- The fields of MEAS (R120). -/
structure Meas where
  valid   : Bool
  on      : Bool
  mode    : LoadMode
  rawstat : Byte
  deriving DecidableEq, Repr

/-- The output ports as driven in the step that led to this state (R101, R102, R103; log 6). -/
structure Outputs where
  txValid : Bool
  txData  : Byte
  hRdata  : Word
  deriving DecidableEq, Repr

/-- The contents of a byte buffer (R131, R132): the bytes written so far by index, indices strictly rising. An index that is
not listed has not been written since reset and reads as a free value (log 8). -/
abbrev Memory := List Host.Cell

/-- The machine. -/
structure State where
  /-- The instance's build parameters (R9); no step changes them (log 1). -/
  params : Params
  /-- CTRL (R112). -/
  ctrl : Ctrl
  /-- DEVADDR.ADDR (R113). -/
  devaddr : Byte
  /-- SETTLE (R114). -/
  settle : Word
  /-- GAP (R115). -/
  gap : Word
  /-- MAXGAP (R116). -/
  maxgap : Word
  /-- ARG (R117). -/
  arg : Word
  /-- STATUS (R119). -/
  status : Status
  /-- MEAS (R120). -/
  meas : Meas
  /-- MEAS_V bits 23:0 (R121). -/
  measV : Meas24
  /-- MEAS_I bits 23:0 (R122). -/
  measI : Meas24
  /-- PHASE (R130). -/
  phase : Phase
  /-- TXBUF (R131). -/
  txbuf : Memory
  /-- TXLEN (R131). -/
  txlen : Nat
  /-- TXIDX (R131, R140). -/
  txidx : Nat
  /-- RXBUF (R132). -/
  rxbuf : Memory
  /-- RXLEN (R133), which the RXLEN register shows (R123). -/
  rxlen : Nat
  /-- CAPTURE (R133). -/
  capture : Bool
  /-- TIMER (R134). -/
  timer : Word
  /-- MARK (R134). -/
  mark : Nat
  /-- GAPS (R134). -/
  gaps : Word
  /-- The model's own: a byte was lost to overflow since the last poll, or since issue, which keeps the drain going
  (R568, R581; log 9). -/
  lost : Bool
  /-- The model's own: pending reset and channel inputs, the next step's first (log 4). -/
  wires : List Wires
  /-- The model's own: the host's pending lines, the next step's first (log 4). -/
  hostProgram : List HostLine
  /-- The model's own: how many steps were taken; it picks the free values (log 5). -/
  now : Nat
  /-- The model's own: the output ports during the last step (log 6). -/
  out : Outputs
  deriving DecidableEq, Repr

/-- Why the machine stops with a fault: never. "no block behaviour is a fault; every input sequence has exactly one next
state" (R644), so there is no reason to name; the faults of a host program that R644 speaks of are in Safety.lean. -/
inductive Fault where
  deriving DecidableEq, Repr

/-- Why an instruction has no meaning here. -/
inductive Refusal where
  /-- Raised by an arm of `exec` whose instruction is not modelled yet; safe (the machine stops). No arm raises it. -/
  | notModelled (mnemonic : String)
  deriving DecidableEq, Repr

/-- The outcome of a step or of a meaning. -/
abbrev Outcome := Host.Outcome State Fault Refusal

/-- The state after reset of an instance with parameters `p` (R700): closed and idle. TXBUF and RXBUF list nothing, since
their contents are unspecified; the last five fields are the model's own (log 4, log 5, log 6, log 9). -/
def State.resetWith (p : Params) : State where
  params := p
  ctrl := { en := false, rxcrc := true, echo := false }
  devaddr := p.devaddrReset
  settle := settleReset p
  gap := gapReset p
  maxgap := 0#32
  arg := 0#32
  status :=
    { busy := false, done := false, ovr := false, rxovf := false, expired := false, result := .none, lastop := 0#8 }
  meas := { valid := false, on := false, mode := .cv, rawstat := 0#8 }
  measV := 0#24
  measI := 0#24
  phase := .idle
  txbuf := []
  txlen := 0
  txidx := 0
  rxbuf := []
  rxlen := 0
  capture := false
  timer := 0#32
  mark := 0
  gaps := 0#32
  lost := false
  wires := []
  hostProgram := []
  now := 0
  out := { txValid := false, txData := 0#8, hRdata := 0#32 }

/-- The machine right after reset (R700), for the instance whose parameters are open (R9; log 1). -/
def State.reset : State := State.resetWith Config.params

end Sys2Proof.Machine
end

