-- ==== Sys2Proof/Machine/Operands.lean ====
section
/-! DEFINITION. Operands and byte order: the reading of ARG (R301), the device register map with its ranges (R480, R481), and
the byte sequences of 00_scope.md R12. -/

namespace Sys2Proof.Machine

/-- `sint32`: a 32-bit pattern read as two's complement (R11, R117). -/
def sint32 (v : Word) : Int := v.toInt

/-- `be16(v)`: high byte first (R12, R212). -/
def be16 (v : Half) : List Byte := [v.extractLsb' 8 8, v.extractLsb' 0 8]

/-- `be32(v)`: highest byte first (R12, R211). -/
def be32 (v : Word) : List Byte :=
  [v.extractLsb' 24 8, v.extractLsb' 16 8, v.extractLsb' 8 8, v.extractLsb' 0 8]

/-- `le16(v)`: low byte first (R12, R404). -/
def le16 (v : Half) : List Byte := [v.extractLsb' 0 8, v.extractLsb' 8 8]

/-- `be24val(a, b, c)` (R12, R213). -/
def be24val (a b c : Byte) : Meas24 :=
  (a.setWidth 24 <<< 16) ||| (b.setWidth 24 <<< 8) ||| c.setWidth 24

/-- The 16-bit value of two bytes sent low byte first: `lo | (hi << 8)` (R406). -/
def le16val (lo hi : Byte) : Half := lo.setWidth 16 ||| (hi.setWidth 16 <<< 8)

/-- The device register address of a quantity (R480, R481). -/
def quantityAddr : Quantity → Half
  | .onOff => 0x010E#16
  | .mode => 0x0110#16
  | .voltage => 0x0112#16
  | .current => 0x0116#16
  | .resistance => 0x011A#16
  | .power => 0x011E#16

/-- The lower bound of a quantity's inclusive range (R480, R481). -/
def quantityLo : Quantity → Int
  | .onOff => 0
  | .mode => 0
  | .voltage => 0
  | .current => 0
  | .resistance => 0
  | .power => 0

/-- The upper bound of a quantity's inclusive range, in its encoding unit (R480, R481). -/
def quantityHi : Quantity → Int
  | .onOff => 1
  | .mode => 3
  | .voltage => 150000
  | .current => 30000
  | .resistance => 80000
  | .power => 2500

/-- `InRange`: inclusive on both ends (R481). -/
def inRange (q : Quantity) (a : Int) : Bool := decide (quantityLo q ≤ a) && decide (a ≤ quantityHi q)

/-- The quantity that a SET opcode writes (the rows 0x01 to 0x06 of MAP, R481). -/
def opQuantity (op : Byte) : Option Quantity :=
  match op.toNat with
  | 0x01 => some .onOff
  | 0x02 => some .mode
  | 0x03 => some .voltage
  | 0x04 => some .current
  | 0x05 => some .resistance
  | 0x06 => some .power
  | _ => none

end Sys2Proof.Machine
end

