-- ==== Sys2Proof/Machine/Crc.lean ====
section
/-! DEFINITION. The CRC-16 engine (40_crc.md): a function of a whole byte sequence within one step (R135). -/

namespace Sys2Proof.Machine

/-- CRC_BIT: one logical right shift, with the polynomial when a 1 is shifted out (R402). -/
def crcBit (c : Half) : Half := if c.getLsbD 0 then (c >>> 1) ^^^ 0xA001#16 else c >>> 1

/-- `n` shift steps. -/
def crcBits : Nat → Half → Half
  | 0, c => c
  | n + 1, c => crcBits n (crcBit c)

/-- CRC_BYTE: the byte into the low half, then eight shift steps (R401). -/
def crcByte (c : Half) (b : Byte) : Half := crcBits 8 (c ^^^ b.setWidth 16)

/-- CRC16 from the seed 0xFFFF, index 0 first (R400, R403). -/
def crc16 (bs : List Byte) : Half := bs.foldl crcByte 0xFFFF#16

/-- CRC_APPEND: the CRC of everything before it, low byte first (R405). -/
def withCrc (bs : List Byte) : List Byte := bs ++ le16 (crc16 bs)

/-- CRC_CHECK: at least two bytes, and the last two are the CRC of the rest (R406). -/
def crcOk (f : List Byte) : Bool :=
  decide (2 ≤ f.length) &&
    decide (crc16 (f.take (f.length - 2)) = le16val (f.getD (f.length - 2) 0#8) (f.getD (f.length - 1) 0#8))

end Sys2Proof.Machine
end

