-- ==== Sys2Proof/Machine/Flags.lean ====
section
/-! DEFINITION. The status flags and the host's view of every register (10_state.md R110 to R124): the fields of State packed
into the 32-bit words a host read returns, reserved bits 0. -/

namespace Sys2Proof.Machine

/-- The code of PHASE (R119, R130). -/
def phaseCode : Phase → BitVec 2
  | .idle => 0#2
  | .tx => 1#2
  | .wait => 2#2

/-- The code of RESULT (R630). -/
def resultCode : Result → BitVec 3
  | .none => 0#3
  | .ok => 1#3
  | .invalidInput => 2#3
  | .noReply => 3#3
  | .notConfirmed => 4#3
  | .invalidCmd => 5#3
  | .closed => 6#3

/-- The code of a load mode (R120, R325). -/
def modeCode : LoadMode → BitVec 2
  | .cv => 0#2
  | .cc => 1#2
  | .cr => 2#2
  | .cw => 3#2

/-- The load mode of a 2-bit field: every value is one (R325, R531). -/
def modeOfCode (c : BitVec 2) : LoadMode :=
  match c.toNat with
  | 0 => .cv
  | 1 => .cc
  | 2 => .cr
  | _ => .cw

/-- One flag at its place in a register word. -/
def bitAt (n : Nat) (b : Bool) : Word := (BitVec.ofBool b).setWidth 32 <<< n

/-- CTRL as a host reads it (R112). -/
def ctrlWord (c : Ctrl) : Word := bitAt 2 c.echo ||| bitAt 1 c.rxcrc ||| bitAt 0 c.en

/-- CTRL as a host write of `v` leaves it: bits 31:3 are ignored (R203). -/
def ctrlOfWord (v : Word) : Ctrl := { en := v.getLsbD 0, rxcrc := v.getLsbD 1, echo := v.getLsbD 2 }

/-- STATUS as a host reads it (R119). -/
def statusWord (st : Status) (ph : Phase) : Word :=
  (st.lastop.setWidth 32 <<< 16) ||| ((phaseCode ph).setWidth 32 <<< 12) |||
    ((resultCode st.result).setWidth 32 <<< 8) ||| bitAt 4 st.expired ||| bitAt 3 st.rxovf ||| bitAt 2 st.ovr |||
    bitAt 1 st.done ||| bitAt 0 st.busy

/-- MEAS as a host reads it (R120, R534). -/
def measWord (m : Meas) : Word :=
  (m.rawstat.setWidth 32 <<< 8) ||| ((modeCode m.mode).setWidth 32 <<< 2) ||| bitAt 1 m.on ||| bitAt 0 m.valid

/-- What issuing OP does to STATUS before the command's own effect (R562): DONE, OVR, RXOVF and EXPIRED are cleared and
LASTOP takes the OP; BUSY and RESULT are kept. -/
def Status.issued (st : Status) (op : Byte) : Status :=
  { st with done := false, ovr := false, rxovf := false, expired := false, lastop := op }

/-- The value a host read of a register returns (R202). CMD reads 0 (R118). -/
def hostRegWord (s : State) : HostReg → Word
  | .ctrl => ctrlWord s.ctrl
  | .devaddr => s.devaddr.setWidth 32
  | .settle => s.settle
  | .gap => s.gap
  | .maxgap => s.maxgap
  | .arg => s.arg
  | .cmd => 0#32
  | .status => statusWord s.status s.phase
  | .meas => measWord s.meas
  | .measV => s.measV.setWidth 32
  | .measI => s.measI.setWidth 32
  | .rxlen => BitVec.ofNat 32 s.rxlen

/-- The value a host read of index `idx` returns (R202); the reserved indices read 0 (R124). -/
def hostRead (s : State) (idx : BitVec 4) : Word :=
  match hostRegAt idx with
  | some r => hostRegWord s r
  | none => 0#32

end Sys2Proof.Machine
end

