-- ==== Sys2Proof/Machine/Codec.lean ====
section
/-! DEFINITION. The frame codec (41_frame_codec.md) and the measurement decoder (R531): pure functions of their operands and
the instance's parameters. -/

namespace Sys2Proof.Machine

/-- BuildWrite: the 13-byte `W13` frame (R320, R430). -/
def buildWrite (p : Params) (dev : Byte) (ra : Half) (v : Word) : List Byte :=
  withCrc ([dev, p.fcWrite] ++ be16 ra ++ [0x00#8, 0x01#8, 0x04#8] ++ be32 v)

/-- BuildRead: the 8-byte `R8` frame (R321, R431). -/
def buildRead (p : Params) (dev : Byte) : List Byte :=
  withCrc ([dev, p.fcRead] ++ be16 p.rdBlock ++ be16 p.rdQty)

/-- ClassifyWrite: what an echo `r` of the frame `sent` says (R440, R441, R450). -/
def classifyWrite (r sent : List Byte) (expired ovf echo : Bool) : Result :=
  if ovf || expired then .noReply
  else if r.length = 0 then .noReply
  else if echo then
    if r.length ≤ sent.length ∧ r = sent.take r.length then .ok else .notConfirmed
  else
    if r = sent then .ok else .notConfirmed

/-- ClassifyRead: the 8 payload bytes of an acceptable read reply, none for NO_REPLY (R445 to R450). -/
def classifyRead (p : Params) (r : List Byte) (dev : Byte) (rxcrc expired ovf : Bool) : Option (List Byte) :=
  if ovf || expired then none
  else if r.length < 3 then none
  else if r.getD 0 0#8 ≠ dev ∨ r.getD 1 0#8 ≠ p.fcRead then none
  else if rxcrc then
    let n := (r.getD 2 0#8).toNat
    if n < 8 then none
    else if r.length < 3 + n + 2 then none
    else if crcOk (r.take (3 + n + 2)) then some ((r.drop 3).take 8)
    else none
  else
    if r.length < 11 then none else some ((r.drop 3).take 8)

/-- A decoded measurement (R531). -/
structure Measurement where
  on   : Bool
  mode : LoadMode
  raw  : Byte
  mv   : Meas24
  ma   : Meas24
  deriving DecidableEq, Repr

/-- DecodeMeas, of the 8 payload bytes of R324; byte 1 and bits 7:3 of byte 0 are not read (R531, R532). -/
def decodeMeas (p : List Byte) : Measurement where
  on := (p.getD 0 0#8).getLsbD 0
  mode := modeOfCode ((p.getD 0 0#8).extractLsb' 1 2)
  raw := p.getD 0 0#8
  mv := be24val (p.getD 2 0#8) (p.getD 3 0#8) (p.getD 4 0#8)
  ma := be24val (p.getD 5 0#8) (p.getD 6 0#8) (p.getD 7 0#8)

end Sys2Proof.Machine
end

