-- ==== Sys2Proof/Machine/Ops.lean ====
section
/-! DEFINITION. The named operations over the buffers and registers that the meanings and the sequencing share: buffer reads
and writes (R206), the completion of a command without I/O (R564), the start of a transaction (R563), the measurement
registers' update (R534), and reset (R700). The block has no exception entry or return (R635 to R637): `finish` is where
every error at issue ends. -/

namespace Sys2Proof.Machine

/-- The byte last written at an index, none if nothing was. -/
def Memory.read : Memory → Nat → Option Byte
  | [], _ => none
  | (k, b) :: m, a => if k = a then some b else Memory.read m a

/-- One byte written, indices kept strictly rising. -/
def Memory.write : Memory → Nat → Byte → Memory
  | [], a, b => [(a, b)]
  | (k, c) :: m, a, b =>
    if a < k then (a, b) :: (k, c) :: m
    else if a = k then (a, b) :: m
    else (k, c) :: Memory.write m a b

/-- The canonical form: indices strictly rising. An unlisted index holds no listed value, so there is nothing an entry could
repeat (log 8). -/
abbrev Memory.wf (m : Memory) : Prop := (m.map Prod.fst).Pairwise (· < ·)

/-- MemWrite of a byte sequence from an index on (R13, R206). -/
def Memory.writeBytes : Memory → Nat → List Byte → Memory
  | m, _, [] => m
  | m, a, b :: bs => Memory.writeBytes (Memory.write m a b) (a + 1) bs

/-- `TXBUF[i]` (R131); a free value where nothing was written (log 8). -/
def txByte (s : State) (i : Nat) : Byte := (Memory.read s.txbuf i).getD (Config.txbufUnwritten i)

/-- `RXBUF[i]` (R132); a free value where nothing was written (log 8). -/
def rxByte (s : State) (i : Nat) : Byte := (Memory.read s.rxbuf i).getD (Config.rxbufUnwritten i)

/-- `MemRead(TXBUF, 0, TXLEN)`: the frame sent (R440). -/
def txFrame (s : State) : List Byte := (List.range s.txlen).map (txByte s)

/-- `MemRead(RXBUF, 0, RXLEN)`: the captured reply (R206). -/
def rxReply (s : State) : List Byte := (List.range s.rxlen).map (rxByte s)

/-- The part of Issue that every OP shares (R562). -/
def prepareIssue (op : Byte) (s : State) : State := { s with status := s.status.issued op }

/-- Finish: a completion that uses no channel (R564). -/
def finish (code : Result) (s : State) : State :=
  { s with status := { s.status with result := code, done := true } }

/-- StartTransaction (R563). -/
def startTransaction (f : List Byte) (s : State) : State :=
  { s with
    txbuf := Memory.writeBytes s.txbuf 0 f
    txlen := f.length
    txidx := 0
    rxlen := 0
    capture := true
    mark := 0
    gaps := 0#32
    lost := false
    timer := 0#32
    phase := .tx
    status := { s.status with busy := true } }

/-- SetMeas (R534). -/
def setMeas (m : Measurement) (s : State) : State :=
  { s with
    meas := { valid := true, on := m.on, mode := m.mode, rawstat := m.raw }
    measV := m.mv
    measI := m.ma }

/-- ClearMeas (R534). -/
def clearMeas (s : State) : State :=
  { s with
    meas := { valid := false, on := false, mode := .cv, rawstat := 0#8 }
    measV := 0#24
    measI := 0#24 }

/-- A step with `rst = 1`: every state element takes its reset value (R700, R701). The parameters are the instance's, and
what stands outside the block (pending inputs, the step count, the driven outputs) is no state element of it (log 14). -/
def resetBlock (s : State) : State :=
  { State.resetWith s.params with
    wires := s.wires, hostProgram := s.hostProgram, now := s.now, out := s.out }

/-- `h_rdata` of the step under way (R200, R202). -/
def setReadData (v : Word) (s : State) : State := { s with out := { s.out with hRdata := v } }

end Sys2Proof.Machine
end

