-- ==== Sys2Proof/Machine/Channel.lean ====
section
/-! DEFINITION. The block's own part of a step (44_channel_io.md): Receive (phase 1) and Advance (phase 2), with the poll and
the termination of a transaction. -/

namespace Sys2Proof.Machine

/-- `tx_valid`, from the state at the start of a step (R102). -/
def txValid (s : State) : Bool := decide (s.phase = .tx)

/-- `tx_data`, from the state at the start of a step (R102). -/
def txData (s : State) : Byte := if s.phase = .tx then txByte s s.txidx else 0x00#8

/-- Receive (R561): a byte is kept while CAPTURE = 1 and RXBUF has room, lost with RXOVF when it has none, and discarded
while CAPTURE = 0 (R575). -/
def receive (valid : Bool) (data : Byte) (s : State) : State :=
  if valid && s.capture then
    if s.rxlen < s.params.rxbufDepth then
      { s with rxbuf := Memory.write s.rxbuf s.rxlen data, rxlen := s.rxlen + 1 }
    else { s with status := { s.status with rxovf := true }, lost := true }
  else s

/-- Judging the reply of a SET command at termination (R572). -/
def concludeWrite (s : State) : State :=
  { s with
    status :=
      { s.status with
        result := classifyWrite (rxReply s) (txFrame s) s.status.expired s.status.rxovf s.ctrl.echo } }

/-- Judging and decoding the reply of GET_MEASUREMENTS at termination (R572, R534). -/
def concludeRead (s : State) : State :=
  match classifyRead s.params (rxReply s) s.devaddr s.ctrl.rxcrc s.status.expired s.status.rxovf with
  | some p => setMeas (decodeMeas p) { s with status := { s.status with result := .ok } }
  | none => clearMeas { s with status := { s.status with result := .noReply } }

/-- Terminate (R572): LASTOP 0x01 to 0x06 is a write, anything else the read (log 16). -/
def terminate (s : State) : State :=
  let t := { s with capture := false, phase := .idle, status := { s.status with busy := false, done := true } }
  match opQuantity s.status.lastop with
  | some _ => concludeWrite t
  | none => concludeRead t

/-- No byte was received since the previous poll, or since issue (R568): none was captured (RXLEN = MARK) and none was lost
to overflow, for a lost byte keeps the drain going too (R581; log 9). -/
def quietPoll (s : State) : Bool := decide (s.rxlen = s.mark) && !s.lost

/-- Poll (R568, R569, R571). -/
def poll (s : State) : State :=
  if quietPoll s then terminate s
  else if s.maxgap ≠ 0#32 ∧ s.gaps = s.maxgap then
    terminate { s with status := { s.status with expired := true } }
  else { s with mark := s.rxlen, gaps := s.gaps + 1#32, timer := s.gap, lost := false }

/-- One step of transmission, in a step that starts with PHASE = TX (R565, R566). -/
def transmit (txReady : Bool) (s : State) : State :=
  if txReady then
    if s.txidx + 1 = s.txlen then { s with txidx := s.txidx + 1, phase := .wait, timer := s.settle }
    else { s with txidx := s.txidx + 1 }
  else s

/-- One step of waiting, in a step that starts with PHASE = WAIT (R567). -/
def waitTick (s : State) : State :=
  let t := { s with timer := if 0#32 < s.timer then s.timer - 1#32 else 0#32 }
  if t.timer = 0#32 then poll t else t

/-- Advance (R560, R565 to R569): nothing moves while IDLE (R643). -/
def advance (txReady : Bool) (s : State) : State :=
  match s.phase with
  | .idle => s
  | .tx => transmit txReady s
  | .wait => waitTick s

end Sys2Proof.Machine
end

