-- ==== Sys2Proof/Machine/ReadCommand.lean ====
section
/-! DEFINITION. The read command (43_read_command.md): what it does in its issue step. Its reply is checked and decoded later,
at termination (Channel.lean, R572). -/

namespace Sys2Proof.Machine

/-- ExecGet: session, then the frame; a closed session clears the measurement (R530). -/
def execGet (s : State) : State :=
  if s.ctrl.en = false then finish .closed (clearMeas s)
  else startTransaction (buildRead s.params s.devaddr) s

/-- GET_MEASUREMENTS, OP 0x07 (R530). -/
def execGetMeasurements (s : State) : Outcome := .next (execGet (prepareIssue (opcode .getMeasurements) s))

end Sys2Proof.Machine
end

