-- ==== Sys2Proof/Machine/WriteCommands.lean ====
section
/-! DEFINITION. The six write commands (42_write_commands.md): what each does in its issue step. Its echo is judged later, at
termination (Channel.lean, R572). -/

namespace Sys2Proof.Machine

/-- ExecSet: range, then session, then the frame (R482, R633). -/
def execSet (q : Quantity) (s : State) : State :=
  if inRange q (sint32 s.arg) = false then finish .invalidInput s
  else if s.ctrl.en = false then finish .closed s
  else startTransaction (buildWrite s.params s.devaddr (quantityAddr q) s.arg) s

/-- SET_POWER_STATE, OP 0x01 (R483). -/
def execSetPowerState (s : State) : Outcome := .next (execSet .onOff (prepareIssue (opcode .setPowerState) s))

/-- SET_MODE, OP 0x02 (R484). -/
def execSetMode (s : State) : Outcome := .next (execSet .mode (prepareIssue (opcode .setMode) s))

/-- SET_VOLTAGE, OP 0x03 (R485). -/
def execSetVoltage (s : State) : Outcome := .next (execSet .voltage (prepareIssue (opcode .setVoltage) s))

/-- SET_CURRENT, OP 0x04 (R486). -/
def execSetCurrent (s : State) : Outcome := .next (execSet .current (prepareIssue (opcode .setCurrent) s))

/-- SET_RESISTANCE, OP 0x05 (R487). -/
def execSetResistance (s : State) : Outcome := .next (execSet .resistance (prepareIssue (opcode .setResistance) s))

/-- SET_POWER, OP 0x06 (R488). -/
def execSetPower (s : State) : Outcome := .next (execSet .power (prepareIssue (opcode .setPower) s))

end Sys2Proof.Machine
end

