-- ==== Sys2Proof/Machine/Dispatch.lean ====
section
/-! DEFINITION. One arm per command: Issue of a legal OP (R562), in a step where BUSY = 0 (R118; log 22). -/

namespace Sys2Proof.Machine

def exec (i : Instr) (s : State) : Host.Outcome State Fault Refusal :=
  match i with
  | .setPowerState => Sys2Proof.Machine.execSetPowerState s
  | .setMode => Sys2Proof.Machine.execSetMode s
  | .setVoltage => Sys2Proof.Machine.execSetVoltage s
  | .setCurrent => Sys2Proof.Machine.execSetCurrent s
  | .setResistance => Sys2Proof.Machine.execSetResistance s
  | .setPower => Sys2Proof.Machine.execSetPower s
  | .getMeasurements => Sys2Proof.Machine.execGetMeasurements s

end Sys2Proof.Machine
end

