-- ==== Sys2Proof/Machine/HostPort.lean ====
section
/-! DEFINITION. The host's access, phase 3 of a step (20_memory.md R200 to R204), and the issue of a command (R562). -/

namespace Sys2Proof.Machine

/-- Issue of an OP that selects no command: it completes at once (R311, R562). -/
def issueIllegal (op : Byte) (s : State) : State := finish .invalidCmd (prepareIssue op s)

/-- Issue (R562): a CMD write of `v` with BUSY = 0. -/
def issue (v : Word) (s : State) : Outcome :=
  match decode v with
  | .ok i => exec i s
  | .error (.reservedOp op) => .next (issueIllegal op s)

/-- A host write to a register while BUSY = 1: ignored whole, and OVR is set (R111, R204, R634). -/
def refuseWrite (s : State) : State := { s with status := { s.status with ovr := true } }

/-- A host write that the BUSY rule does not concern (R203). -/
def acceptWrite (r : HostReg) (v : Word) (s : State) : Outcome :=
  match r with
  | .ctrl => .next { s with ctrl := ctrlOfWord v }
  | .devaddr => .next { s with devaddr := v.extractLsb' 0 8 }
  | .settle => .next { s with settle := v }
  | .gap => .next { s with gap := v }
  | .maxgap => .next { s with maxgap := v }
  | .arg => .next { s with arg := v }
  | .cmd => issue v s
  | .status => .next s
  | .meas => .next s
  | .measV => .next s
  | .measI => .next s
  | .rxlen => .next s

/-- The registers at indices 0x0 to 0x6, which a host may not write while BUSY (R204). -/
def guardedReg : HostReg → Bool
  | .ctrl => true
  | .devaddr => true
  | .settle => true
  | .gap => true
  | .maxgap => true
  | .arg => true
  | .cmd => true
  | .status => false
  | .meas => false
  | .measV => false
  | .measI => false
  | .rxlen => false

/-- A host write of `v` to index `idx` (R203, R204); writes to the reserved indices have no effect (R124). -/
def hostWrite (idx : BitVec 4) (v : Word) (s : State) : Outcome :=
  match hostRegAt idx with
  | some r =>
    match guardedReg r && s.status.busy with
    | true => .next (refuseWrite s)
    | false => acceptWrite r v s
  | none => .next s

/-- HostAccess (R200, R560): at most one access, a whole word (R201). `h_rdata` is 0 without an access, the register read
in a read step, and not stated in a write step (log 7), where it is the free value of the step just counted. -/
def hostAccess (p : HostPort) (s : State) : Outcome :=
  if p.req then
    if p.we then hostWrite p.idx p.wdata (setReadData (Config.freeReadData s.now) s)
    else .next (setReadData (hostRead s p.idx) s)
  else .next (setReadData 0#32 s)

end Sys2Proof.Machine
end

