-- ==== Sys2Proof/Machine/Cycle.lean ====
section
/-! DEFINITION. One step, from the pending inputs to the next state (44_channel_io.md R560): inputs, outputs, reset or the
three phases. -/

namespace Sys2Proof.Machine

/-- The reset and channel inputs of the coming step: the first pending ones, else free values (log 4). -/
def wiresNow (s : State) : Wires :=
  match s.wires with
  | w :: _ => w
  | [] => Config.freeWires s.now

/-- The host access of the coming step: the first pending line's, else a free value (log 4). -/
def hostPortNow (s : State) : HostPort :=
  match s.hostProgram with
  | l :: _ => hostLinePort l
  | [] => Config.freeHostPort s.now

/-- The step's channel inputs are taken, the step is counted, and the outputs show the state at its start (R102). -/
def startStep (s : State) : State :=
  { s with
    wires := s.wires.tail
    now := s.now + 1
    out := { s.out with txValid := txValid s, txData := txData s } }

/-- Phases 1 and 2 of a step: Receive, then Advance (R560). -/
def blockPhases (w : Wires) (s : State) : State := advance w.txReady (receive w.rxValid w.rxData s)

/-- The block's part of the step: reset, or its two phases (R560). -/
def afterBlock (s : State) : State :=
  if (wiresNow s).rst then resetBlock (startStep s) else blockPhases (wiresNow s) (startStep s)

/-- The host's line is done after this step, but a POLL line stays while a STATUS read shows BUSY = 1 (R340, R341;
log 12). -/
def retireLine (s : State) : State :=
  match s.hostProgram with
  | [] => s
  | .poll :: ls => if s.status.busy then s else { s with hostProgram := ls }
  | _ :: ls => { s with hostProgram := ls }

/-- The state that phase 3 of the step sees. -/
def beforeHost (s : State) : State := retireLine (afterBlock s)

/-- One step (R560). In a step with `rst = 1` no host access is performed and `h_rdata = 0` (R700). -/
def cycle (s : State) : Outcome :=
  if (wiresNow s).rst then .next (setReadData 0#32 (beforeHost s))
  else hostAccess (hostPortNow s) (beforeHost s)

/-- The channel and reset inputs of a step in which nothing arrives: no reset, no byte, the channel ready. -/
def quietWires : Wires := { rst := false, rxValid := false, rxData := 0x00#8, txReady := true }

/-- A CMD write of `v` as the host's next access, with the block between transactions (BUSY = 0, R118) and quiet inputs, so
that the next step issues it (log 13). -/
def placeCommand (v : Word) (s : State) : State :=
  { s with
    hostProgram := .wr (hostIdx .cmd) v :: s.hostProgram
    wires := quietWires :: s.wires
    phase := .idle
    capture := false
    status := { s.status with busy := false } }

end Sys2Proof.Machine
end

