-- ==== Sys2Proof/Machine/Step.lean ====
section
/-! DEFINITION. The machine's step, and the place its next command is read from. -/

namespace Sys2Proof.Machine

/-- One cycle of `clk` (R14, R560). -/
def step (s : State) : Host.Outcome State Fault Refusal := cycle s

/-- The state whose next step issues the CMD8 word `w`, as the opcode table numbers its bits: the host's next access is a CMD
write of it (R300; log 13). -/
def State.withFetchWord (s : State) (nbits w : Nat) : State := placeCommand (BitVec.ofNat 32 (w % 2 ^ nbits)) s

end Sys2Proof.Machine
end

