-- ==== Sys2Proof/Machine/Float64.lean ====
section
/-! DEFINITION. The binary64 arithmetic the host adapter needs (45_host_adapter.md R603, R604, R611): products, quotients and
the rounding to an integer, all to nearest with ties to even, computed from exact rationals. -/

namespace Sys2Proof.Machine

/-- A binary64 datum: a finite one is `± m × 2^e`. -/
inductive F64 where
  | nan
  | inf (neg : Bool)
  | fin (neg : Bool) (m : Nat) (e : Int)
  deriving DecidableEq, Repr

/-- The datum of a 64-bit pattern. -/
def decodeF64 (b : BitVec 64) : F64 :=
  let neg := b.getLsbD 63
  let ex := (b.extractLsb' 52 11).toNat
  let frac := (b.extractLsb' 0 52).toNat
  if ex = 2047 then (if frac = 0 then .inf neg else .nan)
  else if ex = 0 then .fin neg frac (-1074)
  else .fin neg (frac + 2 ^ 52) ((ex : Int) - 1075)

/-- A 64-bit pattern from its sign, exponent and fraction fields. -/
def fieldsF64 (neg : Bool) (ex frac : Nat) : BitVec 64 :=
  ((BitVec.ofBool neg).setWidth 64 <<< 63) ||| ((BitVec.ofNat 11 ex).setWidth 64 <<< 52) |||
    (BitVec.ofNat 52 frac).setWidth 64

/-- The pattern of a datum as `roundRat` leaves it: a significand below 2^53, and below 2^52 only at the least exponent. A NaN
is the quiet one without payload (log 18). -/
def encodeF64 : F64 → BitVec 64
  | .nan => 0x7FF8000000000000#64
  | .inf neg => fieldsF64 neg 2047 0
  | .fin neg m e =>
    if m < 2 ^ 52 then fieldsF64 neg 0 m
    else fieldsF64 neg (e + 1075).toNat (m - 2 ^ 52)

/-- The integer nearest to `num / den`, ties to even. -/
def roundHalfEven (num den : Nat) : Nat :=
  let q := num / den
  let r := num % den
  if 2 * r < den then q
  else if den < 2 * r then q + 1
  else if q % 2 = 0 then q else q + 1

/-- `n / d × 2^(-e)` as a numerator and a denominator. -/
def scaleRat (n d : Nat) (e : Int) : Nat × Nat :=
  if 0 ≤ e then (n, d * 2 ^ e.toNat) else (n * 2 ^ (-e).toNat, d)

/-- `floor(log2(n / d))` for positive `n` and `d`. -/
def floorLog2 (n d : Nat) : Int :=
  let k := (Nat.log2 n : Int) - Nat.log2 d
  let s := scaleRat n d k
  if s.2 ≤ s.1 then k else k - 1

/-- The binary64 nearest to `± n / d`, ties to even; beyond the largest finite one, an infinity. -/
def roundRat (neg : Bool) (n d : Nat) : F64 :=
  if n = 0 then .fin neg 0 (-1074)
  else
    let e := max (-1074) (floorLog2 n d - 52)
    let s := scaleRat n d e
    let m := roundHalfEven s.1 s.2
    let r : Nat × Int := if m = 2 ^ 53 then (2 ^ 52, e + 1) else (m, e)
    if 971 < r.2 then .inf neg else .fin neg r.1 r.2

/-- The binary64 product (`⊗` of R603). -/
def mulF64 : F64 → F64 → F64
  | .nan, _ => .nan
  | _, .nan => .nan
  | .inf a, .inf b => .inf (a != b)
  | .inf a, .fin b m _ => if m = 0 then .nan else .inf (a != b)
  | .fin a m _, .inf b => if m = 0 then .nan else .inf (a != b)
  | .fin a m e, .fin b k f =>
    let s := scaleRat (m * k) 1 (-(e + f))
    roundRat (a != b) s.1 s.2

/-- An integer as a datum; exact where the adapter uses it (1000, 10 and measurement fields). -/
def natF64 (n : Nat) : F64 := roundRat false n 1

/-- The binary64 quotient of two integers (`⊘` of R611), for a positive divisor. -/
def divNat (n d : Nat) : F64 := roundRat false n d

/-- `round(y)`: the exact value of `y` to the nearest integer, ties to even; none for a NaN or an infinity (R603, R604). -/
def roundF64 : F64 → Option Int
  | .nan => none
  | .inf _ => none
  | .fin neg m e =>
    let s := scaleRat m 1 (-e)
    let z : Int := roundHalfEven s.1 s.2
    some (if neg then -z else z)

end Sys2Proof.Machine
end

