-- ==== Sys2Proof/Machine/Adapter.lean ====
section
/-! DEFINITION. The host adapter (45_host_adapter.md): the seven methods as host lines for the block, the reading of their
answers, the session, and the closed loop of a method over `step`. Host software, no part of the block (R8). -/

namespace Sys2Proof.Machine

/-- What the adapter raises (R613, R614). -/
inductive AdapterError where
  | invalidInput
  | sessionClosed
  deriving DecidableEq, Repr

/-- MeasurementSnapshot (R15, R611): voltage and current as binary64 patterns. -/
structure Snapshot where
  on       : Bool
  mode     : LoadMode
  voltageV : BitVec 64
  currentA : BitVec 64
  deriving DecidableEq, Repr

/-- What a method returns: whether the echo matched, or a measurement if there is one (R605, R611). -/
inductive Answer where
  | wrote (ok : Bool)
  | measured (m : Option Snapshot)
  deriving DecidableEq, Repr

/-- The scale of a quantity given in physical units (R600); the on/off and mode values are not scaled. -/
def quantityScale : Quantity → Nat
  | .onOff => 1
  | .mode => 1
  | .voltage => 1000
  | .current => 1000
  | .resistance => 1000
  | .power => 10

/-- `round(value * scale)` (R602, R603); none where there is no integer (R604). -/
def encodeValue (scale : Nat) : CallerNum → Option Int
  | .int z => some (z * scale)
  | .float b => roundF64 (mulF64 (decodeF64 b) (natF64 scale))

/-- The adapter's own range check and the operand word it lets through (R601, R604). -/
def checkedOperand (q : Quantity) (n : Option Int) : Except AdapterError Word :=
  match n with
  | some z => if inRange q z then .ok (BitVec.ofInt 32 z) else .error .invalidInput
  | none => .error .invalidInput

/-- The operand of `set_mode`: an integer only (R606; log 17). -/
def modeOperand : CallerNum → Except AdapterError Word
  | .int z => checkedOperand .mode (some z)
  | .float _ => .error .invalidInput

/-- The command a method issues (R605 to R611). -/
def methodCommand : Method → Instr
  | .setPowerState _ => .setPowerState
  | .setMode _ => .setMode
  | .setVoltage _ => .setVoltage
  | .setCurrent _ => .setCurrent
  | .setResistance _ => .setResistance
  | .setPower _ => .setPower
  | .getMeasurements => .getMeasurements

/-- The ARG word of a method, or InvalidInput before the block is touched (R601 to R610); GET_MEASUREMENTS has none. -/
def methodOperand : Method → Except AdapterError Word
  | .setPowerState on => .ok (if on then 1#32 else 0#32)
  | .setMode n => modeOperand n
  | .setVoltage n => checkedOperand .voltage (encodeValue (quantityScale .voltage) n)
  | .setCurrent n => checkedOperand .current (encodeValue (quantityScale .current) n)
  | .setResistance n => checkedOperand .resistance (encodeValue (quantityScale .resistance) n)
  | .setPower n => checkedOperand .power (encodeValue (quantityScale .power) n)
  | .getMeasurements => .ok 0#32

/-- The host lines of a method (R341, R612). -/
def methodLines (m : Method) : Except AdapterError (List HostLine) :=
  match methodOperand m with
  | .ok x => .ok (commandLines (methodCommand m) x)
  | .error e => .error e

/-- STATUS.RESULT in a STATUS word (R119). -/
def resultField (status : Word) : BitVec 3 := status.extractLsb' 8 3

/-- The snapshot in the measurement registers' words (R611). -/
def snapshotOf (meas mv mi : Word) : Snapshot where
  on := meas.getLsbD 1
  mode := modeOfCode (meas.extractLsb' 2 2)
  voltageV := encodeF64 (divNat mv.toNat 1000)
  currentA := encodeF64 (divNat mi.toNat 1000)

/-- The answer of a method from the words read after its completion, in the order of its reads (R605 to R614; log 19). -/
def methodAnswer (m : Method) (reads : List Word) : Except AdapterError Answer :=
  let r := resultField (reads.getD 0 0#32)
  if r = resultCode .invalidInput then .error .invalidInput
  else if r = resultCode .closed then .error .sessionClosed
  else
    match m with
    | .getMeasurements =>
      if r = resultCode .ok then
        .ok (.measured (some (snapshotOf (reads.getD 1 0#32) (reads.getD 2 0#32) (reads.getD 3 0#32))))
      else .ok (.measured none)
    | _ => .ok (.wrote (decide (r = resultCode .ok)))

/-- Derived power, the caller's product (R536, R617). -/
def derivedPower (s : Snapshot) : BitVec 64 := encodeF64 (mulF64 (decodeF64 s.voltageV) (decodeF64 s.currentA))

/-- A CTRL write with the given EN and the session's options (R112). -/
def ctrlLine (en rxcrc echo : Bool) : HostLine :=
  .wr (hostIdx .ctrl) (ctrlWord { en := en, rxcrc := rxcrc, echo := echo })

/-- The tuning write of a register, if the caller tunes it (R615). -/
def tuneLine (r : HostReg) : Option Word → List HostLine
  | some v => [.wr (hostIdx r) v]
  | none => []

/-- Opening a session: the address, the timing the caller tunes, then EN = 1 (R615, R616, R703). -/
def openSession (addr : Byte) (settle gap maxgap : Option Word) (rxcrc echo : Bool) : List HostLine :=
  [.wr (hostIdx .devaddr) (addr.setWidth 32)] ++ tuneLine .settle settle ++ tuneLine .gap gap ++
    tuneLine .maxgap maxgap ++ [ctrlLine true rxcrc echo]

/-- Teardown: wait for BUSY = 0, then EN = 0, the session's options kept (R615, R718; log 18). -/
def closeSession (rxcrc echo : Bool) : List HostLine := [.poll, ctrlLine false rxcrc echo]

/-- The read data a line collects: that of a plain read. -/
def collectRead (l : HostLine) (t : State) (acc : List Word) : List Word :=
  match l with
  | .rd _ => acc ++ [t.out.hRdata]
  | _ => acc

/-- Steps until the host's lines are done, at most `fuel` of them, with the words read. None if the lines are not done. -/
def runLines : Nat → State → List Word → Option (List Word × State)
  | 0, s, acc => if s.hostProgram = [] then some (acc, s) else none
  | fuel + 1, s, acc =>
    match s.hostProgram with
    | [] => some (acc, s)
    | l :: _ =>
      match step s with
      | .next t => runLines fuel t (collectRead l t acc)
      | .fault _ => none
      | .refused _ => none

/-- What the adapter puts before lines of its own: nothing where the block is free; else the host's pending lines and a POLL,
since it never writes the block while BUSY = 1 (R612; log 24). -/
def waitLines (s : State) : List HostLine :=
  if s.status.busy = false ∧ s.hostProgram = [] then [] else s.hostProgram ++ [.poll]

/-- The adapter's lines handed to the block: a method's, or those that open or close a session (R612, R615). -/
def adapterCall (ls : List HostLine) (s : State) : State := { s with hostProgram := waitLines s ++ ls }

/-- How many words the lines before the adapter's own read. -/
def pendingReads (s : State) : Nat :=
  s.hostProgram.countP fun l =>
    match l with
    | .rd _ => true
    | _ => false

/-- A method called on the block (R605 to R614): an input error leaves the block untouched (R601); otherwise the method's lines
run once the block is free (R612), and the words they read give the answer. None if it has not completed within `fuel` steps
(R616, R717). -/
def callMethod (fuel : Nat) (m : Method) (s : State) : Option (Except AdapterError Answer × State) :=
  match methodLines m with
  | .error e => some (.error e, s)
  | .ok ls =>
    match runLines fuel (adapterCall ls s) [] with
    | some (reads, t) => some (methodAnswer m (reads.drop (pendingReads s)), t)
    | none => none

end Sys2Proof.Machine
end

