-- ==== Sys2Proof/Safety.lean ====
section
/-! DEFINITION. The terms claims are stated in: the invariant of the block, and the faults of a host program that R644 names.
The block itself has no fault (R644). -/

namespace Sys2Proof.Machine

/-- The request frame that LASTOP, ARG and DEVADDR call for: W13 for a SET command, else R8 (R482, R530). -/
def requestFrame (s : State) : List Byte :=
  match opQuantity s.status.lastop with
  | some q => buildWrite s.params s.devaddr (quantityAddr q) s.arg
  | none => buildRead s.params s.devaddr

/-- What holds of the block in every reachable state. -/
structure Inv (s : State) : Prop where
  /-- R9: the parameters are in their ranges. -/
  params : s.params.wf = true
  /-- TXBUF is in canonical form. -/
  txbufWf : Memory.wf s.txbuf
  /-- RXBUF is in canonical form. -/
  rxbufWf : Memory.wf s.rxbuf
  /-- R131: TXBUF has 16 bytes. -/
  txbufBound : ∀ c ∈ s.txbuf, c.1 < 16
  /-- R132: RXBUF has RXBUF_DEPTH bytes. -/
  rxbufBound : ∀ c ∈ s.rxbuf, c.1 < s.params.rxbufDepth
  /-- R131, R563: a frame has 8 or 13 bytes; 0 before the first one. -/
  txlen : s.txlen = 0 ∨ s.txlen = 8 ∨ s.txlen = 13
  /-- R140: TXIDX stops at TXLEN. -/
  txidx : s.txidx ≤ s.txlen
  /-- R133: RXLEN counts the bytes in RXBUF. -/
  rxlen : s.rxlen ≤ s.params.rxbufDepth
  /-- R134: MARK is an earlier RXLEN. -/
  mark : s.mark ≤ s.rxlen
  /-- R131: every byte of the frame was written. -/
  txWritten : ∀ i < s.txlen, (Memory.read s.txbuf i).isSome = true
  /-- R132: every byte of the reply was written. -/
  rxWritten : ∀ i < s.rxlen, (Memory.read s.rxbuf i).isSome = true
  /-- R119: BUSY is 1 exactly from issue to termination. -/
  busyPhase : s.status.busy = true ↔ s.phase ≠ .idle
  /-- R133: CAPTURE likewise. -/
  captureBusy : s.capture = s.status.busy
  /-- R119: DONE is 0 from issue to completion. -/
  doneNotBusy : s.status.busy = true → s.status.done = false
  /-- R630, R631: a completed command has a result. -/
  doneResult : s.status.done = true → s.status.result ≠ .none
  /-- R565: while sending, a byte is left to send, and the counters of the drain stand at 0 (R563). -/
  sending : s.phase = .tx → s.txidx < s.txlen ∧ s.timer = 0#32 ∧ s.gaps = 0#32 ∧ s.mark = 0
  /-- R565, R568: while waiting, the frame is out and the timer runs from SETTLE or GAP. -/
  waiting : s.phase = .wait → s.txidx = s.txlen ∧ (s.timer ≤ s.settle ∨ s.timer ≤ s.gap)
  /-- R571: a bounded drain begins at most MAXGAP pauses. -/
  gaps : s.status.busy = true → s.maxgap ≠ 0#32 → s.gaps ≤ s.maxgap
  /-- R450, R561: a byte is lost only when RXBUF is full, and RXOVF says so. -/
  lostFull : s.status.busy = true → s.lost = true → s.rxlen = s.params.rxbufDepth ∧ s.status.rxovf = true
  /-- R580, R310: a transaction runs in an open session, for a legal OP. -/
  busyOpen : s.status.busy = true → s.ctrl.en = true ∧ 1 ≤ s.status.lastop.toNat ∧ s.status.lastop.toNat ≤ 7
  /-- R205, R225: the frame is the one of the command's operands, which stay as they were at issue. -/
  frame : s.status.busy = true → txFrame s = requestFrame s
  /-- R482: the operand of a running SET command is in its range. -/
  operand : s.status.busy = true → ∀ q, opQuantity s.status.lastop = some q → inRange q (sint32 s.arg) = true
  /-- R534: without VALID the measurement registers read 0. -/
  cleared : s.meas.valid = false →
    s.meas.on = false ∧ s.meas.mode = .cv ∧ s.meas.rawstat = 0#8 ∧ s.measV = 0#24 ∧ s.measI = 0#24

/-- The faults of a host program (R644, 93 U1, U13); `step` never stops for them. -/
inductive HostFault where
  /-- A write to an index 0x0 to 0x6 while BUSY = 1, which sets OVR (R204, R634). -/
  | overlappedRequest
  /-- A read of RESULT or of a measurement register while BUSY = 1, which gives an earlier command's value (R711). -/
  | staleRead
  deriving DecidableEq, Repr

/-- The registers whose read while BUSY is stale (R644). A STATUS read shows RESULT; a POLL line's does not count (log 23). -/
def staleWhileBusy : HostReg → Bool
  | .status => true
  | .meas => true
  | .measV => true
  | .measI => true
  | _ => false

/-- The host's coming line is a POLL. -/
def pollPending (s : State) : Bool :=
  match s.hostProgram with
  | .poll :: _ => true
  | _ => false

/-- The fault the host program commits in the coming step, if any (R644). -/
def hostFault (s : State) : Option HostFault :=
  if (wiresNow s).rst then none
  else if (hostPortNow s).req && (beforeHost s).status.busy then
    match hostRegAt (hostPortNow s).idx with
    | some r =>
      if (hostPortNow s).we then (if guardedReg r then some .overlappedRequest else none)
      else if staleWhileBusy r && !pollPending s then some .staleRead else none
    | none => none
  else none

end Sys2Proof.Machine
end

