-- ==== Sys2Proof/Certificates/Slice0/Obligations.lean ====
section
/-! DEFINITION. The statements about the block, one per property of the spec, for the provers. -/

open Sys2Proof Sys2Proof.Machine

/-! ### The command encoding -/

/-- Words written out from R300 and R310 decode to their commands; bits 31:8 do not matter (95_test_vectors.md section 4);
reserved OPs are rejected (R311). -/
def Obligations.SampleCommandWordsDecode : Prop :=
  decode 0x00000001#32 = .ok .setPowerState ∧ decode 0x00000002#32 = .ok .setMode ∧
  decode 0x00000103#32 = .ok .setVoltage ∧ decode 0xFFFFFF04#32 = .ok .setCurrent ∧
  decode 0x00000005#32 = .ok .setResistance ∧ decode 0x80000006#32 = .ok .setPower ∧
  decode 0x00000007#32 = .ok .getMeasurements ∧
  decode 0x00000000#32 = .error (.reservedOp 0x00#8) ∧ decode 0x00000108#32 = .error (.reservedOp 0x08#8) ∧
  decode 0x000000FF#32 = .error (.reservedOp 0xFF#8)

/-- R300, R310: a CMD word selects a command exactly when it is the command's encoding with any value in the ignored bits
31:8; every other word, and no other, is rejected, and by its OP (R311). -/
def Obligations.DecodeAgreesWithEncode : Prop :=
  (∀ (w : Word) (i : Instr), decode w = .ok i ↔ ∃ hi : BitVec 24, w = encode i ||| (hi.setWidth 32 <<< 8)) ∧
  (∀ (w : Word) (op : Byte), decode w = .error (.reservedOp op) ↔
    op.toNat = w.toNat % 256 ∧ (op.toNat = 0 ∨ 8 ≤ op.toNat))

/-! ### The CRC engine -/

/-- R401 and R402, with their worked examples: a byte goes into the low byte of the CRC, then eight times a logical right
shift, with 0xA001 when a 1 is shifted out. -/
def Obligations.CrcByteIsEightShiftSteps : Prop :=
  (∀ c : Half, crcBit c = if c.getLsbD 0 then BitVec.ofNat 16 (c.toNat / 2) ^^^ 0xA001#16 else BitVec.ofNat 16 (c.toNat / 2)) ∧
  (∀ (c : Half) (b : Byte), crcByte c b = Nat.iterate crcBit 8 (c ^^^ b.setWidth 16)) ∧
  crcBit 0x0001#16 = 0xA001#16 ∧ crcBit 0x0002#16 = 0x0001#16 ∧
  crcByte 0xFFFF#16 0xFF#8 = 0x00FF#16 ∧ crcByte 0xFFFF#16 0x00#8 = 0x40BF#16

/-- R407: a sequence of at least two bytes is CRC-valid exactly when the CRC over all of it is 0. -/
def Obligations.CrcValidIffResidueZero : Prop :=
  ∀ f : List Byte, 2 ≤ f.length → (crcOk f = true ↔ crc16 f = 0x0000#16)

/-- R408: a CRC-valid frame with any one byte changed to a different value is not CRC-valid. -/
def Obligations.SingleByteCorruptionIsDetected : Prop :=
  ∀ (f : List Byte) (i : Nat) (b : Byte) (h : i < f.length), crcOk f = true → b ≠ f[i] → crcOk (f.set i b) = false

/-- R406: CRC-valid means the last two bytes are the CRC of the bytes before them, low byte first; a sequence of fewer than
two bytes never is. -/
def Obligations.CrcCheckComparesTrailingBytes : Prop :=
  (∀ (body : List Byte) (lo hi : Byte),
    crcOk (body ++ [lo, hi]) = true ↔ (crc16 body).toNat = lo.toNat + 256 * hi.toNat) ∧
  (∀ f : List Byte, f.length < 2 → crcOk f = false)

/-! ### The frame codec -/

/-- R320: the 13 bytes of the write-register request frame. -/
def Obligations.WriteFrameLayout : Prop :=
  ∀ (p : Params) (dev : Byte) (ra : Half) (v : Word),
    let body : List Byte :=
      [dev, p.fcWrite, ra.extractLsb' 8 8, ra.extractLsb' 0 8, 0x00#8, 0x01#8, 0x04#8,
        v.extractLsb' 24 8, v.extractLsb' 16 8, v.extractLsb' 8 8, v.extractLsb' 0 8]
    buildWrite p dev ra v = body ++ [(crc16 body).extractLsb' 0 8, (crc16 body).extractLsb' 8 8] ∧
      (buildWrite p dev ra v).length = 13

/-- R321: the 8 bytes of the read-common-block request frame. -/
def Obligations.ReadFrameLayout : Prop :=
  ∀ (p : Params) (dev : Byte),
    let body : List Byte :=
      [dev, p.fcRead, p.rdBlock.extractLsb' 8 8, p.rdBlock.extractLsb' 0 8,
        p.rdQty.extractLsb' 8 8, p.rdQty.extractLsb' 0 8]
    buildRead p dev = body ++ [(crc16 body).extractLsb' 0 8, (crc16 body).extractLsb' 8 8] ∧
      (buildRead p dev).length = 8

/-- R434: a write frame parses back to its operands, and it is CRC-valid. -/
def Obligations.WriteFrameParsesBack : Prop :=
  ∀ (p : Params) (dev : Byte) (ra : Half) (v : Word),
    let f := buildWrite p dev ra v
    let b : Nat → Nat := fun i => (f.getD i 0#8).toNat
    f.getD 0 0#8 = dev ∧ f.getD 1 0#8 = p.fcWrite ∧ b 2 * 256 + b 3 = ra.toNat ∧
    (f.drop 4).take 3 = [0x00#8, 0x01#8, 0x04#8] ∧
    b 7 * 16777216 + b 8 * 65536 + b 9 * 256 + b 10 = v.toNat ∧ crcOk f = true

/-- R432: every frame the block builds is CRC-valid, its first byte is the device address and its second the function
code. -/
def Obligations.FramesBuiltAreCrcValid : Prop :=
  ∀ (p : Params) (dev : Byte) (ra : Half) (v : Word),
    (crcOk (buildWrite p dev ra v) = true ∧ (buildWrite p dev ra v).take 2 = [dev, p.fcWrite]) ∧
    (crcOk (buildRead p dev) = true ∧ (buildRead p dev).take 2 = [dev, p.fcRead])

/-- R440: the three outcomes of a write acknowledgement. -/
def Obligations.WriteEchoClassification : Prop :=
  ∀ (r sent : List Byte) (expired ovf echo : Bool),
    (classifyWrite r sent expired ovf echo = .noReply ↔ ovf = true ∨ expired = true ∨ r = []) ∧
    (classifyWrite r sent expired ovf echo = .ok ↔
      ovf = false ∧ expired = false ∧ r ≠ [] ∧ (r = sent ∨ (echo = true ∧ r <+: sent))) ∧
    (classifyWrite r sent expired ovf echo = .notConfirmed ↔
      ovf = false ∧ expired = false ∧ r ≠ [] ∧ r ≠ sent ∧ (echo = true → ¬ r <+: sent))

/-- R445: a read reply is accepted exactly when it has the layout of R322, with its CRC checked under RXCRC = 1 and its byte
count not read under RXCRC = 0; the result is its first 8 payload bytes. -/
def Obligations.ReadReplyClassification : Prop :=
  ∀ (p : Params) (r pl : List Byte) (dev : Byte) (expired ovf : Bool),
    (classifyRead p r dev true expired ovf = some pl ↔
      ovf = false ∧ expired = false ∧
      ∃ (n lo hi : Byte) (body rest : List Byte),
        r = [dev, p.fcRead, n] ++ body ++ [lo, hi] ++ rest ∧ body.length = n.toNat ∧ 8 ≤ n.toNat ∧
        (crc16 ([dev, p.fcRead, n] ++ body)).toNat = lo.toNat + 256 * hi.toNat ∧ pl = body.take 8) ∧
    (classifyRead p r dev false expired ovf = some pl ↔
      ovf = false ∧ expired = false ∧ pl.length = 8 ∧
      ∃ (n : Byte) (rest : List Byte), r = [dev, p.fcRead, n] ++ pl ++ rest)

/-- R531: the decoding of a payload of exactly 8 bytes. -/
def Obligations.MeasurementDecode : Prop :=
  ∀ st b1 v2 v1 v0 i2 i1 i0 : Byte,
    let m := decodeMeas [st, b1, v2, v1, v0, i2, i1, i0]
    m.raw = st ∧ m.on = st.getLsbD 0 ∧ (modeCode m.mode).toNat = st.toNat / 2 % 4 ∧
    m.mv.toNat = v2.toNat * 65536 + v1.toNat * 256 + v0.toNat ∧
    m.ma.toNat = i2.toNat * 65536 + i1.toNat * 256 + i0.toNat

/-! ### The host port -/

/-- R202: a host read returns the register's fields, reserved bits 0, from the state that the step's receive and block phases
leave, and changes no state but the port's `h_rdata`; the host's line is done with the step. -/
def Obligations.HostReadReturnsRegisterAndChangesNothing : Prop :=
  ∀ (s : State) (idx : BitVec 4),
    (∀ ls, (wiresNow s).rst = false → s.hostProgram = .rd idx :: ls →
      step s = .next
        { afterBlock s with
          hostProgram := ls, out := { (afterBlock s).out with hRdata := hostRead (afterBlock s) idx } }) ∧
    (hostRead s 0x0#4).toNat = s.ctrl.en.toNat + 2 * s.ctrl.rxcrc.toNat + 4 * s.ctrl.echo.toNat ∧
    (hostRead s 0x1#4).toNat = s.devaddr.toNat ∧
    hostRead s 0x2#4 = s.settle ∧ hostRead s 0x3#4 = s.gap ∧ hostRead s 0x4#4 = s.maxgap ∧
    hostRead s 0x5#4 = s.arg ∧ hostRead s 0x6#4 = 0#32 ∧
    (hostRead s 0x7#4).toNat =
      s.status.busy.toNat + 2 * s.status.done.toNat + 4 * s.status.ovr.toNat + 8 * s.status.rxovf.toNat +
        16 * s.status.expired.toNat + 256 * (resultCode s.status.result).toNat + 4096 * (phaseCode s.phase).toNat +
        65536 * s.status.lastop.toNat ∧
    (hostRead s 0x8#4).toNat =
      s.meas.valid.toNat + 2 * s.meas.on.toNat + 4 * (modeCode s.meas.mode).toNat + 256 * s.meas.rawstat.toNat ∧
    (hostRead s 0x9#4).toNat = s.measV.toNat ∧ (hostRead s 0xA#4).toNat = s.measI.toNat ∧
    (s.rxlen < 2 ^ 32 → (hostRead s 0xB#4).toNat = s.rxlen) ∧
    (12 ≤ idx.toNat → hostRead s idx = 0#32)

/-- R119, R120, R130, R630: the code that a host reads for each result, each phase and each load mode; RESULT never reads 7 and
PHASE never reads 3. -/
def Obligations.ResultAndPhaseReadAsTheirCodes : Prop :=
  ∀ s : State,
    let result := (hostRead s 0x7#4).toNat / 256 % 8
    let phase := (hostRead s 0x7#4).toNat / 4096 % 4
    let mode := (hostRead s 0x8#4).toNat / 4 % 4
    (result = 0 ↔ s.status.result = .none) ∧ (result = 1 ↔ s.status.result = .ok) ∧
    (result = 2 ↔ s.status.result = .invalidInput) ∧ (result = 3 ↔ s.status.result = .noReply) ∧
    (result = 4 ↔ s.status.result = .notConfirmed) ∧ (result = 5 ↔ s.status.result = .invalidCmd) ∧
    (result = 6 ↔ s.status.result = .closed) ∧ result ≠ 7 ∧
    (phase = 0 ↔ s.phase = .idle) ∧ (phase = 1 ↔ s.phase = .tx) ∧ (phase = 2 ↔ s.phase = .wait) ∧ phase ≠ 3 ∧
    (mode = 0 ↔ s.meas.mode = .cv) ∧ (mode = 1 ↔ s.meas.mode = .cc) ∧ (mode = 2 ↔ s.meas.mode = .cr) ∧
    (mode = 3 ↔ s.meas.mode = .cw)

/-- R203: what a host write does when R204 does not ignore it. -/
def Obligations.HostWriteUpdatesRegister : Prop :=
  ∀ (s : State) (v : Word),
    (s.status.busy = false →
      hostWrite 0x0#4 v s = .next { s with ctrl := { en := v.getLsbD 0, rxcrc := v.getLsbD 1, echo := v.getLsbD 2 } } ∧
      hostWrite 0x1#4 v s = .next { s with devaddr := v.extractLsb' 0 8 } ∧
      hostWrite 0x2#4 v s = .next { s with settle := v } ∧
      hostWrite 0x3#4 v s = .next { s with gap := v } ∧
      hostWrite 0x4#4 v s = .next { s with maxgap := v } ∧
      hostWrite 0x5#4 v s = .next { s with arg := v } ∧
      (∀ i, decode v = .ok i → hostWrite 0x6#4 v s = exec i s) ∧
      (∀ op, decode v = .error (.reservedOp op) → hostWrite 0x6#4 v s = .next (issueIllegal op s))) ∧
    (∀ idx : BitVec 4, 7 ≤ idx.toNat → hostWrite idx v s = .next s)

/-- R204: in a step where BUSY = 1 after the block's phases, a write to an index 0x0 to 0x6 sets OVR and does nothing else;
a write to 0x7 to 0xF does nothing and never sets OVR. What `h_rdata` shows meanwhile is left open (log 7). -/
def Obligations.BusyWriteIsRefusedWithOvr : Prop :=
  ∀ (s : State) (idx : BitVec 4) (v : Word) (ls : List HostLine),
    (wiresNow s).rst = false → s.hostProgram = .wr idx v :: ls → (afterBlock s).status.busy = true →
    ∃ t, step s = .next t ∧
      (idx.toNat ≤ 6 →
        t = { afterBlock s with
          hostProgram := ls, status := { (afterBlock s).status with ovr := true }, out := t.out }) ∧
      (7 ≤ idx.toNat → t = { afterBlock s with hostProgram := ls, out := t.out })

/-- R200, R700: a step without reset makes exactly the access that the host's port presents, on the state that the block's
phases leave: none and `h_rdata = 0`, the read, or the write. A reset step makes none, with `h_rdata = 0`. A pending line
drives the port, and the retiring of a line changes nothing else. What `h_rdata` shows in a write step is the model's free
value (log 7). -/
def Obligations.HostAccessIsOneReadOrWrite : Prop :=
  ∀ s : State,
    let p := hostPortNow s
    let b := beforeHost s
    ((wiresNow s).rst = true ∨ p.req = false → step s = .next { b with out := { b.out with hRdata := 0#32 } }) ∧
    ((wiresNow s).rst = false → p.req = true → p.we = false →
      step s = .next { b with out := { b.out with hRdata := hostRead b p.idx } }) ∧
    ((wiresNow s).rst = false → p.req = true → p.we = true →
      step s = hostWrite p.idx p.wdata { b with out := { b.out with hRdata := Config.freeReadData (s.now + 1) } }) ∧
    b = { afterBlock s with hostProgram := b.hostProgram } ∧
    (∀ idx v ls, s.hostProgram = .wr idx v :: ls → p = { req := true, we := true, idx := idx, wdata := v }) ∧
    (∀ idx ls, s.hostProgram = .rd idx :: ls → p.req = true ∧ p.we = false ∧ p.idx = idx) ∧
    (∀ ls, s.hostProgram = .poll :: ls → p.req = true ∧ p.we = false ∧ p.idx = 0x7#4) ∧
    (∀ ls, s.hostProgram = .idle :: ls → p.req = false)

/-! ### The commands -/

/-- Completion of the six SET commands (R481, R482, R562, R563): with ARG in the quantity's range and the session open, the
issue step starts a transaction with the command's 13-byte frame in TXBUF. The next state is given whole, so every other
register, flag and memory byte is as before; TXBUF changes at indices 0 to 12 only. -/
def Obligations.SetCommandsStartTheirTransaction : Prop :=
  ∀ (i : Instr) (op : Byte) (ra : Half) (hi : Int),
    (i, op, ra, hi) ∈
      [(Instr.setPowerState, 0x01#8, 0x010E#16, 1), (Instr.setMode, 0x02#8, 0x0110#16, 3),
        (Instr.setVoltage, 0x03#8, 0x0112#16, 150000), (Instr.setCurrent, 0x04#8, 0x0116#16, 30000),
        (Instr.setResistance, 0x05#8, 0x011A#16, 80000), (Instr.setPower, 0x06#8, 0x011E#16, 2500)] →
  ∀ s : State, s.status.busy = false → s.ctrl.en = true → 0 ≤ s.arg.toInt → s.arg.toInt ≤ hi →
    let body : List Byte :=
      [s.devaddr, s.params.fcWrite, ra.extractLsb' 8 8, ra.extractLsb' 0 8, 0x00#8, 0x01#8, 0x04#8,
        s.arg.extractLsb' 24 8, s.arg.extractLsb' 16 8, s.arg.extractLsb' 8 8, s.arg.extractLsb' 0 8]
    let f := body ++ [(crc16 body).extractLsb' 0 8, (crc16 body).extractLsb' 8 8]
    exec i s = .next
      { s with
        status :=
          { s.status with
            busy := true, done := false, ovr := false, rxovf := false, expired := false, lastop := op }
        txbuf := Memory.writeBytes s.txbuf 0 f
        txlen := 13
        txidx := 0
        rxlen := 0
        capture := true
        mark := 0
        gaps := 0#32
        lost := false
        timer := 0#32
        phase := .tx } ∧
    (∀ j, (h : j < f.length) → Memory.read (Memory.writeBytes s.txbuf 0 f) j = some f[j]) ∧
    (∀ j, 13 ≤ j → Memory.read (Memory.writeBytes s.txbuf 0 f) j = Memory.read s.txbuf j)

/-- R481, R482, R633: a SET command whose ARG is outside its range ends INVALID_INPUT in its issue step, whatever EN is; with
ARG in range and the session closed it ends CLOSED. Either way only STATUS changes: no I/O. -/
def Obligations.SetCommandsRefusedWithoutIo : Prop :=
  ∀ (i : Instr) (op : Byte) (hi : Int),
    (i, op, hi) ∈
      [(Instr.setPowerState, 0x01#8, 1), (Instr.setMode, 0x02#8, 3), (Instr.setVoltage, 0x03#8, 150000),
        (Instr.setCurrent, 0x04#8, 30000), (Instr.setResistance, 0x05#8, 80000), (Instr.setPower, 0x06#8, 2500)] →
  ∀ s : State, s.status.busy = false →
    (s.arg.toInt < 0 ∨ hi < s.arg.toInt →
      exec i s = .next
        { s with
          status :=
            { s.status with
              done := true, ovr := false, rxovf := false, expired := false, result := .invalidInput, lastop := op } }) ∧
    (0 ≤ s.arg.toInt → s.arg.toInt ≤ hi → s.ctrl.en = false →
      exec i s = .next
        { s with
          status :=
            { s.status with
              done := true, ovr := false, rxovf := false, expired := false, result := .closed, lastop := op } })

/-- Completion of GET_MEASUREMENTS (R530, R562, R563): with the session open, the issue step starts a transaction with the
8-byte read frame in TXBUF. The next state is given whole; ARG is not read and the measurement registers are kept. -/
def Obligations.GetMeasurementsStartsItsTransaction : Prop :=
  ∀ s : State, s.status.busy = false → s.ctrl.en = true →
    let body : List Byte :=
      [s.devaddr, s.params.fcRead, s.params.rdBlock.extractLsb' 8 8, s.params.rdBlock.extractLsb' 0 8,
        s.params.rdQty.extractLsb' 8 8, s.params.rdQty.extractLsb' 0 8]
    let f := body ++ [(crc16 body).extractLsb' 0 8, (crc16 body).extractLsb' 8 8]
    exec .getMeasurements s = .next
      { s with
        status :=
          { s.status with
            busy := true, done := false, ovr := false, rxovf := false, expired := false, lastop := 0x07#8 }
        txbuf := Memory.writeBytes s.txbuf 0 f
        txlen := 8
        txidx := 0
        rxlen := 0
        capture := true
        mark := 0
        gaps := 0#32
        lost := false
        timer := 0#32
        phase := .tx } ∧
    (∀ j, (h : j < f.length) → Memory.read (Memory.writeBytes s.txbuf 0 f) j = some f[j]) ∧
    (∀ j, 8 ≤ j → Memory.read (Memory.writeBytes s.txbuf 0 f) j = Memory.read s.txbuf j)

/-- R530, R534: GET_MEASUREMENTS with the session closed clears the measurement registers and ends CLOSED, with no I/O. -/
def Obligations.GetMeasurementsClosedClearsMeasurement : Prop :=
  ∀ s : State, s.status.busy = false → s.ctrl.en = false →
    exec .getMeasurements s = .next
      { s with
        status :=
          { s.status with
            done := true, ovr := false, rxovf := false, expired := false, result := .closed, lastop := 0x07#8 }
        meas := { valid := false, on := false, mode := .cv, rawstat := 0#8 }
        measV := 0#24
        measI := 0#24 }

/-- R311: OP 0x00 and 0x08 to 0xFF select no command; issuing one completes at once with INVALID_CMD and touches nothing but
STATUS. Bits 31:8 of the write never make a command illegal. -/
def Obligations.ReservedOpsCompleteInvalidCmd : Prop :=
  (∀ (s : State) (v : Word), s.status.busy = false → (v.toNat % 256 = 0 ∨ 8 ≤ v.toNat % 256) →
    hostWrite 0x6#4 v s = .next
      { s with
        status :=
          { s.status with
            done := true, ovr := false, rxovf := false, expired := false, result := .invalidCmd
            lastop := BitVec.ofNat 8 (v.toNat % 256) } }) ∧
  (∀ v w : Word, v.toNat % 256 = w.toNat % 256 → decode v = decode w)

/-- R563: StartTransaction of a frame of 8 or 13 bytes. -/
def Obligations.StartTransactionLoadsFrame : Prop :=
  ∀ (f : List Byte) (s : State), f.length = 8 ∨ f.length = 13 →
    let t := startTransaction f s
    txFrame t = f ∧ t.txlen = f.length ∧ t.txidx = 0 ∧ t.rxlen = 0 ∧ rxReply t = [] ∧ t.capture = true ∧
    t.mark = 0 ∧ t.gaps = 0#32 ∧ t.timer = 0#32 ∧ t.phase = .tx ∧ t.status.busy = true ∧
    (∀ j, f.length ≤ j → txByte t j = txByte s j) ∧
    t = { s with
      txbuf := t.txbuf, txlen := t.txlen, txidx := 0, rxlen := 0, capture := true, mark := 0, gaps := 0#32
      lost := t.lost, timer := 0#32, phase := .tx, status := { s.status with busy := true } }

/-! ### Sequencing -/

/-- R560, R562: a step in which the host writes CMD, with no reset and BUSY = 0 after the block's phases, is `exec` of the
decoded command on the state those phases leave, the host's line done and `h_rdata` free (log 7). In a state between
transactions those phases only take the step's inputs and show the outputs. -/
def Obligations.StepRunsDecodedCommand : Prop :=
  ∀ (s : State) (v : Word) (i : Instr) (ls : List HostLine),
    (wiresNow s).rst = false → s.hostProgram = .wr 0x6#4 v :: ls → (afterBlock s).status.busy = false →
    decode v = .ok i →
    step s = exec i
      { afterBlock s with
        hostProgram := ls, out := { (afterBlock s).out with hRdata := Config.freeReadData (s.now + 1) } } ∧
    (s.phase = .idle → s.capture = false →
      afterBlock s =
        { s with
          wires := s.wires.tail, now := s.now + 1, out := { s.out with txValid := false, txData := 0#8 } })

/-- Log 13: after `withFetchWord` of a word that decodes, the next step is `exec` of that command, with the pending inputs of
the state untouched behind it. The model's own convention for fetching. -/
def Obligations.FetchedCommandRunsNext : Prop :=
  ∀ (s : State) (nbits w : Nat) (i : Instr), decodeTableWord nbits w = some i →
    step (s.withFetchWord nbits w) = exec i
      { s with
        phase := .idle, capture := false, status := { s.status with busy := false }, now := s.now + 1
        out := { txValid := false, txData := 0#8, hRdata := Config.freeReadData (s.now + 1) } }

/-- R561: Receive. A byte is appended to the reply while CAPTURE = 1 and RXBUF has room, lost with RXOVF set when it has
none, and discarded while CAPTURE = 0. (`lost` is the model's own field, of which this says nothing.) -/
def Obligations.ReceiveCapturesInOrder : Prop :=
  ∀ (v : Bool) (d : Byte) (s : State),
    (v = false ∨ s.capture = false → receive v d s = s) ∧
    (v = true → s.capture = true → s.rxlen < s.params.rxbufDepth →
      let t := receive v d s
      rxReply t = rxReply s ++ [d] ∧ t.rxlen = s.rxlen + 1 ∧ (∀ j, j ≠ s.rxlen → rxByte t j = rxByte s j) ∧
      t = { s with rxbuf := t.rxbuf, rxlen := t.rxlen }) ∧
    (v = true → s.capture = true → s.params.rxbufDepth ≤ s.rxlen →
      let t := receive v d s
      t = { s with status := { s.status with rxovf := true }, lost := t.lost })

/-- R565: in a step that starts with PHASE = TX, an accepted byte advances TXIDX, the last one starts the settle delay, and
without `tx_ready` nothing changes. -/
def Obligations.TransmitHandshake : Prop :=
  ∀ (rdy : Bool) (s : State), s.phase = .tx →
    txValid s = true ∧ txData s = txByte s s.txidx ∧
    (rdy = false → advance rdy s = s) ∧
    (rdy = true → s.txidx + 1 ≠ s.txlen → advance rdy s = { s with txidx := s.txidx + 1 }) ∧
    (rdy = true → s.txidx + 1 = s.txlen →
      advance rdy s = { s with txidx := s.txidx + 1, phase := .wait, timer := s.settle })

/-- R102, R573: what a step drives on `tx_valid` and `tx_data` follows from the state at its start: the next frame byte while
PHASE = TX, else nothing, in WAIT too. (That a reset step drives them so is log 6.) -/
def Obligations.OutputsShowTheStateAtTheStart : Prop :=
  ∀ s t : State, step s = .next t →
    (s.phase = .tx → t.out.txValid = true ∧ t.out.txData = txByte s s.txidx) ∧
    (s.phase ≠ .tx → t.out.txValid = false ∧ t.out.txData = 0x00#8)

/-- R567 and R568, where a byte lost to overflow counts as received (log 9): in a step that starts with PHASE = WAIT the timer
counts down, and at 0 there is a poll with one of three outcomes (R569). -/
def Obligations.WaitCountsDownAndPolls : Prop :=
  ∀ (rdy : Bool) (s : State), s.phase = .wait →
    let quiet := s.rxlen = s.mark ∧ s.lost = false
    let z := { s with timer := 0#32 }
    (2 ≤ s.timer.toNat → advance rdy s = { s with timer := s.timer - 1#32 }) ∧
    (s.timer.toNat ≤ 1 → quiet → advance rdy s = terminate z) ∧
    (s.timer.toNat ≤ 1 → ¬quiet → s.maxgap ≠ 0#32 → s.gaps = s.maxgap →
      advance rdy s = terminate { z with status := { s.status with expired := true } }) ∧
    (s.timer.toNat ≤ 1 → ¬quiet → s.maxgap = 0#32 ∨ s.gaps ≠ s.maxgap →
      advance rdy s = { s with mark := s.rxlen, gaps := s.gaps + 1#32, timer := s.gap, lost := false })

/-- R572: Terminate, for a SET command and for GET_MEASUREMENTS; RXLEN keeps its value. -/
def Obligations.TerminateRecordsOutcome : Prop :=
  ∀ s : State,
    (1 ≤ s.status.lastop.toNat → s.status.lastop.toNat ≤ 6 →
      terminate s =
        { s with
          capture := false
          phase := .idle
          status :=
            { s.status with
              busy := false, done := true
              result := classifyWrite (rxReply s) (txFrame s) s.status.expired s.status.rxovf s.ctrl.echo } }) ∧
    (s.status.lastop = 0x07#8 →
      (∀ p, classifyRead s.params (rxReply s) s.devaddr s.ctrl.rxcrc s.status.expired s.status.rxovf = some p →
        terminate s =
          { s with
            capture := false
            phase := .idle
            status := { s.status with busy := false, done := true, result := .ok }
            meas :=
              { valid := true, on := (decodeMeas p).on, mode := (decodeMeas p).mode, rawstat := (decodeMeas p).raw }
            measV := (decodeMeas p).mv
            measI := (decodeMeas p).ma }) ∧
      (classifyRead s.params (rxReply s) s.devaddr s.ctrl.rxcrc s.status.expired s.status.rxovf = none →
        terminate s =
          { s with
            capture := false
            phase := .idle
            status := { s.status with busy := false, done := true, result := .noReply }
            meas := { valid := false, on := false, mode := .cv, rawstat := 0#8 }
            measV := 0#24
            measI := 0#24 }))

/-- R570, in steps of the whole machine without reset, whatever the channel and the host do: the step of the last transmit
handshake leaves the timer at SETTLE and the step of a poll that goes on leaves it at GAP; from a timer value T the block keeps
waiting for max(T, 1) - 1 steps, and the next one polls. -/
def Obligations.PollComesAfterTheDelay : Prop :=
  (∀ s : State, s.status.busy = true → s.phase = .tx → s.txidx + 1 = s.txlen → (wiresNow s).rst = false →
    (wiresNow s).txReady = true →
    ∃ t, step s = .next t ∧ t.status.busy = true ∧ t.phase = .wait ∧ t.timer = s.settle) ∧
  (∀ s : State, s.status.busy = true → s.phase = .wait → s.timer.toNat ≤ 1 → (wiresNow s).rst = false →
    (afterBlock s).phase = .wait →
    ∃ t, step s = .next t ∧ t.status.busy = true ∧ t.phase = .wait ∧ t.timer = s.gap) ∧
  (∀ (s : State) (ws : List Wires), s.status.busy = true → s.phase = .wait → ws <+: s.wires →
    (∀ w ∈ ws, w.rst = false) → ws.length < max s.timer.toNat 1 →
    ∃ t, Sys2Proof.core.run ws.length s = .next t ∧ t.status.busy = true ∧ t.phase = .wait ∧
      t.timer.toNat = s.timer.toNat - ws.length ∧ t.mark = s.mark ∧ t.gaps = s.gaps ∧
      (ws.length + 1 = max s.timer.toNat 1 → (wiresNow t).rst = false →
        afterBlock t =
          poll { receive (wiresNow t).rxValid (wiresNow t).rxData (startStep t) with timer := 0#32 }))

/-- R577: with MAXGAP = M ≠ 0, from the state after the last transmit handshake a transaction ends within
max(SETTLE, 1) + M × max(GAP, 1) steps, whatever the channel and the host do. -/
def Obligations.BoundedDrainEndsInTime : Prop :=
  ∀ s : State, s.status.busy = true → s.phase = .wait → s.timer = s.settle → s.gaps = 0#32 → s.maxgap ≠ 0#32 →
    ∃ n t, n < max s.settle.toNat 1 + s.maxgap.toNat * max s.gap.toNat 1 ∧
      Sys2Proof.core.run n s = .next t ∧ (afterBlock t).phase = .idle

/-- R581, V-T6: with MAXGAP = 0 and no reset, the block stays BUSY for as long as a byte arrives in every step, and, from PHASE
= WAIT, for as long as one arrives before the next poll and one in every pause interval after it, whether or not RXBUF has
room (log 9): for ever, if the line goes on so. -/
def Obligations.ChatteringLineKeepsBusy : Prop :=
  (∀ (s : State) (ws : List Wires), Inv s → s.status.busy = true → s.maxgap = 0#32 → ws <+: s.wires →
    (∀ w ∈ ws, w.rst = false ∧ w.rxValid = true) →
    ∃ t, Sys2Proof.core.run ws.length s = .next t ∧ t.status.busy = true ∧ t.phase ≠ .idle) ∧
  (∀ (s : State) (ws : List Wires), Inv s → s.status.busy = true → s.phase = .wait → s.maxgap = 0#32 → ws <+: s.wires →
    (∀ w ∈ ws, w.rst = false) →
    let first := max s.timer.toNat 1
    let pause := max s.gap.toNat 1
    (first ≤ ws.length → s.rxlen ≠ s.mark ∨ s.lost = true ∨ ∃ w ∈ ws.take first, w.rxValid = true) →
    (∀ k, first + (k + 1) * pause ≤ ws.length → ∃ w ∈ (ws.drop (first + k * pause)).take pause, w.rxValid = true) →
    ∃ t, Sys2Proof.core.run ws.length s = .next t ∧ t.status.busy = true ∧ t.phase = .wait)

/-- R222, R565, R573, R730: the frame's bytes leave in index order, one per handshake, whatever the host does meanwhile; the
settle delay starts with the last. -/
def Obligations.FrameBytesLeaveInOrder : Prop :=
  ∀ (s : State) (ws : List Wires), s.status.busy = true → s.phase = .tx → s.txidx = 0 → ws <+: s.wires →
    (∀ w ∈ ws, w.rst = false) →
    (ws.countP (·.txReady) < s.txlen →
      ∃ t, Sys2Proof.core.run ws.length s = .next t ∧ t.phase = .tx ∧ t.txidx = ws.countP (·.txReady) ∧
        txValid t = true ∧ (txFrame s)[ws.countP (·.txReady)]? = some (txData t)) ∧
    (∀ vs w, ws = vs ++ [w] → w.txReady = true → ws.countP (·.txReady) = s.txlen →
      ∃ t, Sys2Proof.core.run ws.length s = .next t ∧ t.phase = .wait ∧ t.timer = s.settle ∧ t.txidx = s.txlen)

/-- R730, R440: a SET command with an in-range operand in an open session whose device echoes its frame exactly by the first
poll, and then is quiet, completes OK at the second poll, in either echo mode and for every MAXGAP. -/
def Obligations.EchoedSetCommandCompletesOk : Prop :=
  ∀ (s : State) (q : Quantity) (v : Word) (w0 : Wires) (ws later : List Wires) (ls : List HostLine),
    Inv s → s.status.busy = false → s.ctrl.en = true → opQuantity (opField v) = some q →
    inRange q (sint32 s.arg) = true →
    let n := 13 + max s.settle.toNat 1 + max s.gap.toNat 1
    s.hostProgram = .wr 0x6#4 v :: (List.replicate n .idle ++ ls) →
    s.wires = w0 :: (ws ++ later) → w0.rst = false → ws.length = n →
    (∀ w ∈ ws, w.rst = false ∧ w.txReady = true) →
    ((ws.take (13 + max s.settle.toNat 1)).filter (·.rxValid)).map (·.rxData) =
      buildWrite s.params s.devaddr (quantityAddr q) s.arg →
    (∀ w ∈ ws.drop (13 + max s.settle.toNat 1), w.rxValid = false) →
    ∃ t, Sys2Proof.core.run (n + 1) s = .next t ∧ t.status.busy = false ∧ t.status.done = true ∧
      t.status.result = .ok ∧ t.status.lastop = opField v ∧ t.rxlen = 13 ∧ t.meas = s.meas

/-! ### Reset -/

/-- R700: a step with `rst = 1` gives every state element its reset value, ignores the other inputs and performs no host
access; TXBUF and RXBUF are unspecified. -/
def Obligations.ResetStepClearsTheBlock : Prop :=
  ∀ s : State, (wiresNow s).rst = true →
    ∃ t, step s = .next t ∧
      t.ctrl = { en := false, rxcrc := true, echo := false } ∧ hostRead t 0x0#4 = 0x00000002#32 ∧
      t.devaddr = s.params.devaddrReset ∧
      (s.params.wf = true → s.params.fClkNum ≤ 10 * s.params.fClkDen * (2 ^ 32 - 1) →
        s.params.fClkNum ≤ 10 * s.params.fClkDen * t.settle.toNat ∧
        10 * s.params.fClkDen * t.settle.toNat < s.params.fClkNum + 10 * s.params.fClkDen ∧
        s.params.fClkNum ≤ 20 * s.params.fClkDen * t.gap.toNat ∧
        20 * s.params.fClkDen * t.gap.toNat < s.params.fClkNum + 20 * s.params.fClkDen) ∧
      t.maxgap = 0#32 ∧ t.arg = 0#32 ∧
      t.status =
        { busy := false, done := false, ovr := false, rxovf := false, expired := false, result := .none, lastop := 0#8 } ∧
      hostRead t 0x7#4 = 0#32 ∧
      t.meas = { valid := false, on := false, mode := .cv, rawstat := 0#8 } ∧ t.measV = 0#24 ∧ t.measI = 0#24 ∧
      t.phase = .idle ∧ t.txlen = 0 ∧ t.txidx = 0 ∧ t.rxlen = 0 ∧ t.capture = false ∧ t.timer = 0#32 ∧ t.mark = 0 ∧
      t.gaps = 0#32 ∧ t.out.hRdata = 0#32 ∧ txValid t = false ∧ txData t = 0x00#8 ∧ t.params = s.params

/-- R700, R702 for the machine's start: closed, idle, no result; the parameters are the instance's. That nothing is pending
and that no buffer byte is listed is the model's choice (log 4, log 8). -/
def Obligations.PowerOnStateIsClosedAndIdle : Prop :=
  State.reset.ctrl.en = false ∧ State.reset.ctrl.rxcrc = true ∧ State.reset.ctrl.echo = false ∧
  State.reset.phase = .idle ∧ State.reset.status.busy = false ∧ State.reset.status.result = .none ∧
  State.reset.devaddr = State.reset.params.devaddrReset ∧ State.reset.params.rxbufDepth = 256 ∧
  State.reset.wires = [] ∧ State.reset.hostProgram = [] ∧ State.reset.txbuf = [] ∧ State.reset.rxbuf = []

/-! ### Rules of the whole machine -/

/-- The invariant holds at reset. -/
def Obligations.InvariantAtReset : Prop := Inv State.reset

/-- The invariant is kept by every step, whatever the inputs. -/
def Obligations.StepKeepsInvariant : Prop := ∀ s t : State, Inv s → step s = .next t → Inv t

/-- R644: no block behaviour is a fault and none is a refusal; every state and input has a next state. -/
def Obligations.StepAlwaysHasNextState : Prop := ∀ s : State, ∃ t, step s = .next t

/-- R205: DEVADDR, CTRL, SETTLE, GAP, MAXGAP and ARG do not change while the block is BUSY. -/
def Obligations.SettingsFixedWhileBusy : Prop :=
  ∀ s t : State, step s = .next t → (wiresNow s).rst = false → (afterBlock s).status.busy = true →
    t.devaddr = s.devaddr ∧ t.ctrl = s.ctrl ∧ t.settle = s.settle ∧ t.gap = s.gap ∧ t.maxgap = s.maxgap ∧
    t.arg = s.arg ∧ t.params = s.params

/-- R225: TXBUF and TXLEN change, reset apart, only in a step that issues a command which starts a transaction. -/
def Obligations.RequestFrameFixedUntilNextIssue : Prop :=
  ∀ s t : State, step s = .next t → (wiresNow s).rst = false → t.txbuf ≠ s.txbuf ∨ t.txlen ≠ s.txlen →
    (hostPortNow s).req = true ∧ (hostPortNow s).we = true ∧ (hostPortNow s).idx = 0x6#4 ∧
    (∃ i, decode (hostPortNow s).wdata = .ok i) ∧ (afterBlock s).status.busy = false ∧
    t.status.busy = true ∧ t.phase = .tx ∧ t.txidx = 0

/-- R534, R482: the measurement registers change, reset apart, only when a GET_MEASUREMENTS terminates or completes
CLOSED. -/
def Obligations.MeasurementsChangeOnlyOnGet : Prop :=
  ∀ s t : State, Inv s → step s = .next t → (wiresNow s).rst = false →
    (t.meas ≠ s.meas ∨ t.measV ≠ s.measV ∨ t.measI ≠ s.measI) →
    (s.phase = .wait ∧ s.status.lastop = 0x07#8 ∧ (afterBlock s).phase = .idle) ∨
    ((hostPortNow s).req = true ∧ (hostPortNow s).we = true ∧ (hostPortNow s).idx = 0x6#4 ∧
      decode (hostPortNow s).wdata = .ok .getMeasurements ∧ s.ctrl.en = false ∧ t.status.result = .closed)

/-- R631: RESULT is written only by a termination in the block's phase, which sets DONE, and by a completion in an issue
step, which sets DONE. -/
def Obligations.ResultIsWrittenWithDone : Prop :=
  ∀ s t : State, Inv s → step s = .next t → (wiresNow s).rst = false →
    ((afterBlock s).status.result ≠ s.status.result →
      s.status.busy = true ∧ (afterBlock s).status.busy = false ∧ (afterBlock s).status.done = true ∧
      (afterBlock s).status.lastop = s.status.lastop ∧
      ((afterBlock s).status.result = .ok ∨ (afterBlock s).status.result = .noReply ∨
        (afterBlock s).status.result = .notConfirmed)) ∧
    (t.status.result ≠ (afterBlock s).status.result →
      (hostPortNow s).req = true ∧ (hostPortNow s).we = true ∧ (hostPortNow s).idx = 0x6#4 ∧
      t.status.busy = false ∧ t.status.done = true ∧ t.status.lastop = opField (hostPortNow s).wdata ∧
      (t.status.result = .invalidCmd ∨ t.status.result = .invalidInput ∨ t.status.result = .closed))

/-- R579: once started, a transaction is ended by nothing but its termination or reset. -/
def Obligations.TransactionEndsOnlyByTermination : Prop :=
  ∀ s : State, Inv s → s.status.busy = true → (wiresNow s).rst = false →
    ((afterBlock s).status.busy = true ∧ (afterBlock s).phase ≠ .idle ∧
      (∀ t, step s = .next t → t.status.busy = true ∧ t.phase = (afterBlock s).phase)) ∨
    ((afterBlock s).status.busy = false ∧ (afterBlock s).phase = .idle ∧ (afterBlock s).status.done = true ∧
      s.phase = .wait ∧ s.timer.toNat ≤ 1)

/-- R634, R644: OVR is set only by the host's own fault of an overlapped request. -/
def Obligations.OvrComesFromOverlappedRequest : Prop :=
  ∀ s t : State, step s = .next t → s.status.ovr = false → t.status.ovr = true →
    hostFault s = some .overlappedRequest

/-- 93 U2: no step depends on a byte of TXBUF at or above TXLEN or of RXBUF at or above RXLEN. Two states that differ in such
bytes only step to states that differ in such bytes only, with the same outputs. -/
def Obligations.UnwrittenBytesNeverMatter : Prop :=
  ∀ s t s' : State,
    (s.phase = .tx → s.txidx < s.txlen) →
    t = { s with txbuf := t.txbuf, rxbuf := t.rxbuf } →
    (∀ i < s.txlen, txByte t i = txByte s i) → (∀ i < s.rxlen, rxByte t i = rxByte s i) →
    step s = .next s' →
    ∃ t', step t = .next t' ∧ t' = { s' with txbuf := t'.txbuf, rxbuf := t'.rxbuf } ∧
      (∀ i < s'.txlen, txByte t' i = txByte s' i) ∧ (∀ i < s'.rxlen, rxByte t' i = rxByte s' i)

/-- R340, R341: a host line is done after its step, and a POLL line only in a step whose STATUS read shows BUSY = 0. -/
def Obligations.PollLineWaitsForCompletion : Prop :=
  ∀ (s t : State) (l : HostLine) (ls : List HostLine), step s = .next t → s.hostProgram = l :: ls →
    (wiresNow s).rst = false →
    (l ≠ .poll → t.hostProgram = ls) ∧
    (l = .poll → t.out.hRdata = hostRead (afterBlock s) 0x7#4 ∧
      t.hostProgram = if (afterBlock s).status.busy then l :: ls else ls)

/-! ### The host adapter -/

/-- R601: an operand the adapter lets through passes the block's own range check. -/
def Obligations.AdapterOperandIsInRange : Prop :=
  ∀ (m : Method) (x : Word) (q : Quantity), methodOperand m = .ok x →
    opQuantity (opcode (methodCommand m)) = some q → inRange q (sint32 x) = true

/-- R602, R604 to R610: what the methods accept, and the operand they write. -/
def Obligations.AdapterAcceptsExactlyTheRange : Prop :=
  (methodOperand (.setPowerState true) = .ok 1#32 ∧ methodOperand (.setPowerState false) = .ok 0#32) ∧
  ∀ (n : CallerNum) (x : Word),
    (methodOperand (.setVoltage n) = .ok x ↔
      ∃ z : Int, encodeValue 1000 n = some z ∧ 0 ≤ z ∧ z ≤ 150000 ∧ x.toInt = z) ∧
    (methodOperand (.setCurrent n) = .ok x ↔
      ∃ z : Int, encodeValue 1000 n = some z ∧ 0 ≤ z ∧ z ≤ 30000 ∧ x.toInt = z) ∧
    (methodOperand (.setResistance n) = .ok x ↔
      ∃ z : Int, encodeValue 1000 n = some z ∧ 0 ≤ z ∧ z ≤ 80000 ∧ x.toInt = z) ∧
    (methodOperand (.setPower n) = .ok x ↔
      ∃ z : Int, encodeValue 10 n = some z ∧ 0 ≤ z ∧ z ≤ 2500 ∧ x.toInt = z) ∧
    (methodOperand (.setMode n) = .ok x ↔ ∃ z : Int, n = .int z ∧ 0 ≤ z ∧ z ≤ 3 ∧ x.toInt = z)

/-- R603's corner cases, each value as its binary64 pattern: 150.0, 150.001, 149.9995, 0.0005, 0.0015, 0.0025, −0.0004 and
−0.001 V, and 250.05 W. An integer is scaled exactly; a NaN or an infinity has no encoding (R604). That products and roundings
are binary64's, to nearest with ties to even, is log 21: PRESUMED, as R603 marks it as general knowledge (93 G5). -/
def Obligations.AdapterRoundsTiesToEven : Prop :=
  encodeValue 1000 (.float 0x4062C00000000000#64) = some 150000 ∧
  encodeValue 1000 (.float 0x4062C0083126E979#64) = some 150001 ∧
  encodeValue 1000 (.float 0x4062BFFBE76C8B44#64) = some 150000 ∧
  encodeValue 1000 (.float 0x3F40624DD2F1A9FC#64) = some 0 ∧
  encodeValue 1000 (.float 0x3F589374BC6A7EFA#64) = some 2 ∧
  encodeValue 1000 (.float 0x3F647AE147AE147B#64) = some 2 ∧
  encodeValue 1000 (.float 0xBF3A36E2EB1C432D#64) = some 0 ∧
  encodeValue 1000 (.float 0xBF50624DD2F1A9FC#64) = some (-1) ∧
  encodeValue 10 (.float 0x406F41999999999A#64) = some 2500 ∧
  (∀ (k : Nat) (z : Int), encodeValue k (.int z) = some (z * k)) ∧
  (∀ k : Nat, encodeValue k (.float 0x7FF8000000000000#64) = none)

/-- R601: an input error touches nothing of the block. -/
def Obligations.AdapterInputErrorLeavesBlockUntouched : Prop :=
  ∀ (fuel : Nat) (m : Method) (s : State), methodOperand m = .error .invalidInput →
    callMethod fuel m s = some (.error .invalidInput, s)

/-- R612: the adapter never writes the block while BUSY = 1, nor reads a result of another command: from any state, its lines
wait for a running transaction, and no step that presents one of them commits a fault of R644. That it first waits for the
host's pending lines is log 24. -/
def Obligations.AdapterNeverWritesWhileBusy : Prop :=
  ∀ (s t : State) (ls : List HostLine) (n : Nat),
    ((∃ m, methodLines m = .ok ls) ∨
      (∃ addr settle gap maxgap rxcrc echo, ls = openSession addr settle gap maxgap rxcrc echo) ∨
      (∃ rxcrc echo, ls = closeSession rxcrc echo)) →
    Sys2Proof.core.run n (adapterCall ls s) = .next t → t.hostProgram ≠ [] → t.hostProgram.length ≤ ls.length →
    hostFault t = none

/-- R612 (log 24): a completed method call is a wait until the block is free, with the method's lines still to come, and then
these lines; the answer is read from their words alone. -/
def Obligations.MethodRunsOnAFreeBlock : Prop :=
  ∀ (fuel : Nat) (m : Method) (s t : State) (ls : List HostLine) (a : Except AdapterError Answer),
    methodLines m = .ok ls → callMethod fuel m s = some (a, t) →
    ∃ n k u reads, n + k = fuel ∧ Sys2Proof.core.run n (adapterCall ls s) = .next u ∧ u.status.busy = false ∧
      u.hostProgram = ls ∧ runLines k u [] = some (reads, t) ∧ a = methodAnswer m reads ∧
      reads.length = (if m = .getMeasurements then 4 else 1) ∧ t.hostProgram = []

/-- R615, R703, R580: opening a session on a block between transactions, with no reset meanwhile, leaves the address, the
tuned timing and CTRL with EN = 1 as the caller chose them, and what the caller did not tune as it was. -/
def Obligations.OpenSessionConfiguresTheBlock : Prop :=
  ∀ (s : State) (addr : Byte) (settle gap maxgap : Option Word) (rxcrc echo : Bool) (ws : List Wires)
    (ls : List HostLine),
    s.phase = .idle → s.status.busy = false →
    s.hostProgram = openSession addr settle gap maxgap rxcrc echo ++ ls →
    ws <+: s.wires → ws.length = (openSession addr settle gap maxgap rxcrc echo).length → (∀ w ∈ ws, w.rst = false) →
    ∃ t, Sys2Proof.core.run ws.length s = .next t ∧ t.devaddr = addr ∧
      t.ctrl = { en := true, rxcrc := rxcrc, echo := echo } ∧ t.settle = settle.getD s.settle ∧
      t.gap = gap.getD s.gap ∧ t.maxgap = maxgap.getD s.maxgap ∧ t.arg = s.arg ∧ t.status.busy = false ∧
      t.phase = .idle ∧ t.hostProgram = ls

/-- R615, R718: teardown waits while the block is BUSY, touching nothing, and then, with no reset meanwhile, closes the session
with one CTRL write, which sets no OVR. That RXCRC and ECHO are kept is log 18. -/
def Obligations.CloseSessionWaitsThenCloses : Prop :=
  ∀ (s : State) (rxcrc echo : Bool) (ls : List HostLine),
    s.hostProgram = closeSession rxcrc echo ++ ls → (wiresNow s).rst = false →
    ((afterBlock s).status.busy = true →
      ∃ t, step s = .next t ∧ t.hostProgram = s.hostProgram ∧ t.ctrl = s.ctrl ∧ t.status = (afterBlock s).status) ∧
    ((afterBlock s).status.busy = false →
      ∃ u, step s = .next u ∧ u.ctrl = s.ctrl ∧ u.status = (afterBlock s).status ∧
        ((wiresNow u).rst = false →
          ∃ t, step u = .next t ∧ t.ctrl = { en := false, rxcrc := rxcrc, echo := echo } ∧ t.hostProgram = ls ∧
            t.status.busy = false ∧ t.status.ovr = s.status.ovr))

/-- R613, R614: how a method surfaces the result it reads. -/
def Obligations.AdapterSurfacesResults : Prop :=
  ∀ (m : Method) (r : Result) (status : Word) (more : List Word), resultField status = resultCode r →
    (r = .invalidInput → methodAnswer m (status :: more) = .error .invalidInput) ∧
    (r = .closed → methodAnswer m (status :: more) = .error .sessionClosed) ∧
    (m ≠ .getMeasurements → r = .ok → methodAnswer m (status :: more) = .ok (.wrote true)) ∧
    (m ≠ .getMeasurements → r = .noReply ∨ r = .notConfirmed → methodAnswer m (status :: more) = .ok (.wrote false)) ∧
    (m = .getMeasurements → r = .ok → ∃ d, methodAnswer m (status :: more) = .ok (.measured (some d))) ∧
    (m = .getMeasurements → r = .noReply → methodAnswer m (status :: more) = .ok (.measured none))

/-- R611: a measurement in volts or amps is the binary64 nearest to the register's value over 1000, as its pattern: zero for 0,
else a normalised number with exponent field 1075 - k. That the division is binary64's, to nearest with ties to even, is log
21: PRESUMED, as R611 marks it as general knowledge (93 G7). -/
def Obligations.MeasurementQuotientIsNearest : Prop :=
  encodeF64 (divNat 0 1000) = 0x0000000000000000#64 ∧
  ∀ n : Nat, 0 < n → n < 2 ^ 24 →
    ∃ (m k : Nat), divNat n 1000 = .fin false m (-k) ∧ 2 ^ 52 ≤ m ∧ m < 2 ^ 53 ∧
      2 * ((m : Int) * 1000 - (n : Int) * 2 ^ k).natAbs ≤ 1000 ∧
      (2 * ((m : Int) * 1000 - (n : Int) * 2 ^ k).natAbs = 1000 → m % 2 = 0) ∧
      (encodeF64 (divNat n 1000)).toNat = (1075 - k) * 2 ^ 52 + (m - 2 ^ 52)

/-- R611 on the source's example (95_test_vectors.md S1): MEAS = 0x307, MEAS_V = 5000 and MEAS_I = 1000 surface as on, CC,
5.0 V and 1.0 A, as binary64 patterns (log 21). -/
def Obligations.AdapterSnapshotExample : Prop :=
  methodAnswer .getMeasurements [0x00070102#32, 0x00000307#32, 0x00001388#32, 0x000003E8#32] =
    .ok (.measured (some
      { on := true, mode := .cc, voltageV := 0x4014000000000000#64, currentA := 0x3FF0000000000000#64 }))
end

