-- ==== Sys2Proof/Laws/Crc.lean ====
section
/-! SUPPORT. The CRC engine as an algebra: a shift step and a byte step lose nothing, and sequences compose. -/

namespace Sys2Proof.Machine

/-- A bit of the CRC after a shift step. -/
theorem crcBit_bit (c : Half) (i : Nat) :
    (crcBit c).getLsbD i = (c.getLsbD (1 + i) ^^ (c.getLsbD 0 && (0xA001#16).getLsbD i)) := by
  unfold crcBit
  cases h : c.getLsbD 0 <;> simp only [Bool.false_and, Bool.true_and, Bool.xor_false, if_true, if_false,
    Bool.false_eq_true, BitVec.getLsbD_xor, BitVec.getLsbD_ushiftRight]

/-- A shift step can be undone: its top bit says whether a 1 was shifted out. -/
theorem crcBit_injective : Function.Injective crcBit := by
  intro a b h
  have hbit (i : Nat) := congrArg (fun c : Half => c.getLsbD i) h
  simp only [crcBit_bit] at hbit
  have hlow : a.getLsbD 0 = b.getLsbD 0 := by
    have := hbit 15
    rwa [show (0xA001#16).getLsbD 15 = true by decide, Bool.and_true, Bool.and_true,
      BitVec.getLsbD_of_ge a (1 + 15) (by omega), BitVec.getLsbD_of_ge b (1 + 15) (by omega),
      Bool.false_xor, Bool.false_xor] at this
  refine BitVec.eq_of_getLsbD_eq fun i _ => ?_
  rcases Nat.eq_zero_or_pos i with rfl | hpos
  · exact hlow
  · have := hbit (i - 1)
    rw [hlow, show 1 + (i - 1) = i by omega] at this
    exact Bool.xor_left_inj.1 this

theorem crcBits_injective (n : Nat) : Function.Injective (crcBits n) := by
  induction n with
  | zero => exact Function.injective_id
  | succ n ih => exact fun a b h => crcBit_injective (ih h)

/-- For one byte, the CRC before decides the CRC after without loss. -/
theorem crcByte_injective_left (b : Byte) : Function.Injective fun c => crcByte c b := by
  intro c d h
  exact (BitVec.xor_left_inj _).1 (crcBits_injective 8 h)

@[simp] theorem crc16_nil : crc16 [] = 0xFFFF#16 := rfl

theorem crc16_append (s t : List Byte) : crc16 (s ++ t) = t.foldl crcByte (crc16 s) := List.foldl_append

theorem crc16_snoc (s : List Byte) (b : Byte) : crc16 (s ++ [b]) = crcByte (crc16 s) b := crc16_append s [b]

@[simp] theorem le16_length (v : Half) : (le16 v).length = 2 := rfl

@[simp] theorem withCrc_length (bs : List Byte) : (withCrc bs).length = bs.length + 2 := by simp [withCrc]

/-- The two serialised bytes give the value back (R404, R406). -/
@[simp] theorem le16val_le16 (v : Half) : le16val (v.extractLsb' 0 8) (v.extractLsb' 8 8) = v := by
  refine BitVec.eq_of_getLsbD_eq fun i hi => ?_
  by_cases h : i < 8
  · simp [le16val, h, hi]
  · simp only [le16val, BitVec.getLsbD_or, BitVec.getLsbD_setWidth, BitVec.getLsbD_extractLsb', BitVec.getLsbD_shiftLeft]
    simp [h, hi, show i - 8 < 8 by omega, show i - 8 < 16 by omega, show 8 + (i - 8) = i by omega]

end Sys2Proof.Machine
end

