-- ==== Sys2Proof/Laws/Memory.lean ====
section
/-! SUPPORT. The laws of the byte buffers: a read after a write to the same index gives the value written, a write leaves every
other index alone, and every operation keeps the canonical form. -/

namespace Sys2Proof.Machine

@[simp] theorem Memory.read_nil (a : Nat) : Memory.read [] a = none := rfl

@[simp] theorem Memory.read_write_same (m : Memory) (a : Nat) (b : Byte) :
    Memory.read (Memory.write m a b) a = some b := by
  induction m with
  | nil => simp [Memory.write, Memory.read]
  | cons c m ih =>
    obtain ⟨k, v⟩ := c
    by_cases h1 : a < k
    · simp [Memory.write, Memory.read, h1]
    · by_cases h2 : a = k
      · simp [Memory.write, Memory.read, h2]
      · simp [Memory.write, Memory.read, h1, h2, Ne.symm h2, ih]

theorem Memory.read_write_other (m : Memory) {a a' : Nat} (b : Byte) (h : a' ≠ a) :
    Memory.read (Memory.write m a b) a' = Memory.read m a' := by
  induction m with
  | nil => simp [Memory.write, Memory.read, Ne.symm h]
  | cons c m ih =>
    obtain ⟨k, v⟩ := c
    by_cases h1 : a < k
    · simp [Memory.write, Memory.read, h1, Ne.symm h]
    · by_cases h2 : a = k
      · subst h2; simp [Memory.write, Memory.read, Ne.symm h]
      · simp [Memory.write, Memory.read, h1, h2, ih]

/-- The indices listed after a write: those listed before, and the one written. -/
theorem Memory.mem_write_keys (m : Memory) (a : Nat) (b : Byte) (k : Nat)
    (h : k ∈ (Memory.write m a b).map Prod.fst) : k = a ∨ k ∈ m.map Prod.fst := by
  induction m with
  | nil => simpa [Memory.write] using h
  | cons c m ih =>
    obtain ⟨j, v⟩ := c
    by_cases h1 : a < j
    · simpa [Memory.write, h1] using h
    · by_cases h2 : a = j
      · subst h2
        simp only [Memory.write, lt_irrefl, if_false, if_true, List.map_cons, List.mem_cons] at h ⊢
        tauto
      · simp only [Memory.write, h1, h2, if_false, List.map_cons, List.mem_cons] at h ⊢
        rcases h with h | h
        · exact .inr (.inl h)
        · exact (ih h).imp_right .inr

theorem Memory.write_wf (m : Memory) (a : Nat) (b : Byte) (h : Memory.wf m) : Memory.wf (Memory.write m a b) := by
  induction m with
  | nil => simp [Memory.wf, Memory.write]
  | cons c m ih =>
    obtain ⟨k, v⟩ := c
    simp only [Memory.wf, List.map_cons, List.pairwise_cons] at h
    by_cases h1 : a < k
    · simp only [Memory.wf, Memory.write, h1, if_true, List.map_cons, List.pairwise_cons, List.mem_cons]
      exact ⟨by rintro j (rfl | hj); exacts [h1, h1.trans (h.1 j hj)], h⟩
    · by_cases h2 : a = k
      · subst h2
        simpa [Memory.wf, Memory.write] using h
      · simp only [Memory.wf, Memory.write, h1, h2, if_false, List.map_cons, List.pairwise_cons]
        refine ⟨fun j hj => ?_, ih h.2⟩
        rcases Memory.mem_write_keys m a b j hj with rfl | hj
        · omega
        · exact h.1 j hj

theorem Memory.writeBytes_wf (m : Memory) (a : Nat) (bs : List Byte) (h : Memory.wf m) :
    Memory.wf (Memory.writeBytes m a bs) := by
  induction bs generalizing m a with
  | nil => exact h
  | cons b bs ih => exact ih _ _ (Memory.write_wf m a b h)

/-- Every listed index after a write lies below a bound that it and the old ones lie below. -/
theorem Memory.write_bound (m : Memory) (a : Nat) (b : Byte) (n : Nat) (ha : a < n)
    (h : ∀ c ∈ m, c.1 < n) : ∀ c ∈ Memory.write m a b, c.1 < n := by
  intro c hc
  rcases Memory.mem_write_keys m a b c.1 (List.mem_map_of_mem hc) with hk | hk
  · omega
  · obtain ⟨d, hd, hk⟩ := List.mem_map.1 hk
    exact hk ▸ h d hd

theorem Memory.writeBytes_bound (m : Memory) (a : Nat) (bs : List Byte) (n : Nat) (ha : a + bs.length ≤ n)
    (h : ∀ c ∈ m, c.1 < n) : ∀ c ∈ Memory.writeBytes m a bs, c.1 < n := by
  induction bs generalizing m a with
  | nil => exact h
  | cons b bs ih =>
    simp only [List.length_cons] at ha
    exact ih _ _ (by omega) (Memory.write_bound m a b n (by omega) h)

theorem Memory.read_writeBytes_below (m : Memory) (a i : Nat) (bs : List Byte) (h : i < a) :
    Memory.read (Memory.writeBytes m a bs) i = Memory.read m i := by
  induction bs generalizing m a with
  | nil => rfl
  | cons b bs ih =>
    rw [Memory.writeBytes, ih _ _ (by omega), Memory.read_write_other m b (by omega)]

theorem Memory.read_writeBytes_above (m : Memory) (a i : Nat) (bs : List Byte) (h : a + bs.length ≤ i) :
    Memory.read (Memory.writeBytes m a bs) i = Memory.read m i := by
  induction bs generalizing m a with
  | nil => rfl
  | cons b bs ih =>
    simp only [List.length_cons] at h
    rw [Memory.writeBytes, ih _ _ (by omega), Memory.read_write_other m b (by omega)]

theorem Memory.read_writeBytes (m : Memory) (a i : Nat) (bs : List Byte) (h : i < bs.length) :
    Memory.read (Memory.writeBytes m a bs) (a + i) = some bs[i] := by
  induction bs generalizing m a i with
  | nil => simp at h
  | cons b bs ih =>
    rw [Memory.writeBytes]
    cases i with
    | zero => rw [Memory.read_writeBytes_below _ _ _ _ (by omega)]; simp
    | succ i =>
      have := ih (Memory.write m a b) (a + 1) i (by simpa using h)
      rw [show a + (i + 1) = a + 1 + i by omega, this]; simp

/-- The buffers right after reset are in canonical form. -/
theorem reset_memory_wf : Memory.wf State.reset.txbuf ∧ Memory.wf State.reset.rxbuf := ⟨.nil, .nil⟩

theorem resetBlock_wf (s : State) : Memory.wf (resetBlock s).txbuf ∧ Memory.wf (resetBlock s).rxbuf := ⟨.nil, .nil⟩

theorem startTransaction_wf (f : List Byte) (s : State) (h : Memory.wf s.txbuf) :
    Memory.wf (startTransaction f s).txbuf := Memory.writeBytes_wf _ _ _ h

/-- After a frame is written from index 0, the frame reads back. -/
theorem txFrame_startTransaction (f : List Byte) (s : State) : txFrame (startTransaction f s) = f := by
  refine List.ext_getElem (by simp [txFrame, startTransaction]) fun i h1 h2 => ?_
  have := Memory.read_writeBytes s.txbuf 0 i f h2
  simp only [Nat.zero_add] at this
  simp [txFrame, startTransaction, txByte, this]

end Sys2Proof.Machine
end

