-- ==== Sys2Proof/Laws/PerInstr.lean ====
section
/-! SUPPORT. Statements for all instructions, one lemma per constructor. -/

namespace Sys2Proof.Laws

namespace OpRange

/-- R310: a command's OP lies in 0x01 to 0x07, and its encoding leaves the ignored bits 31:8 zero. -/
def Statement (i : Instr) : Prop := 1 ≤ (opcode i).toNat ∧ (opcode i).toNat ≤ 7 ∧ (encode i).toNat = (opcode i).toNat

theorem setPowerState : Statement .setPowerState := by unfold Statement; decide
theorem setMode : Statement .setMode := by unfold Statement; decide
theorem setVoltage : Statement .setVoltage := by unfold Statement; decide
theorem setCurrent : Statement .setCurrent := by unfold Statement; decide
theorem setResistance : Statement .setResistance := by unfold Statement; decide
theorem setPower : Statement .setPower := by unfold Statement; decide
theorem getMeasurements : Statement .getMeasurements := by unfold Statement; decide

end OpRange

end Sys2Proof.Laws
end

