-- ==== Sys2Proof/Laws/State.lean ====
section
/-! SUPPORT. What each named update of State leaves in each field: one lemma per field and update, each true by rfl, so that
no proof unfolds a record update. -/

namespace Sys2Proof.Machine

/-! ### prepareIssue -/

@[simp] theorem prepareIssue_params (op : Byte) (s : State) : (prepareIssue op s).params = s.params := rfl
@[simp] theorem prepareIssue_ctrl (op : Byte) (s : State) : (prepareIssue op s).ctrl = s.ctrl := rfl
@[simp] theorem prepareIssue_devaddr (op : Byte) (s : State) : (prepareIssue op s).devaddr = s.devaddr := rfl
@[simp] theorem prepareIssue_settle (op : Byte) (s : State) : (prepareIssue op s).settle = s.settle := rfl
@[simp] theorem prepareIssue_gap (op : Byte) (s : State) : (prepareIssue op s).gap = s.gap := rfl
@[simp] theorem prepareIssue_maxgap (op : Byte) (s : State) : (prepareIssue op s).maxgap = s.maxgap := rfl
@[simp] theorem prepareIssue_arg (op : Byte) (s : State) : (prepareIssue op s).arg = s.arg := rfl
@[simp] theorem prepareIssue_status (op : Byte) (s : State) : (prepareIssue op s).status = s.status.issued op := rfl
@[simp] theorem prepareIssue_meas (op : Byte) (s : State) : (prepareIssue op s).meas = s.meas := rfl
@[simp] theorem prepareIssue_measV (op : Byte) (s : State) : (prepareIssue op s).measV = s.measV := rfl
@[simp] theorem prepareIssue_measI (op : Byte) (s : State) : (prepareIssue op s).measI = s.measI := rfl
@[simp] theorem prepareIssue_phase (op : Byte) (s : State) : (prepareIssue op s).phase = s.phase := rfl
@[simp] theorem prepareIssue_txbuf (op : Byte) (s : State) : (prepareIssue op s).txbuf = s.txbuf := rfl
@[simp] theorem prepareIssue_txlen (op : Byte) (s : State) : (prepareIssue op s).txlen = s.txlen := rfl
@[simp] theorem prepareIssue_txidx (op : Byte) (s : State) : (prepareIssue op s).txidx = s.txidx := rfl
@[simp] theorem prepareIssue_rxbuf (op : Byte) (s : State) : (prepareIssue op s).rxbuf = s.rxbuf := rfl
@[simp] theorem prepareIssue_rxlen (op : Byte) (s : State) : (prepareIssue op s).rxlen = s.rxlen := rfl
@[simp] theorem prepareIssue_capture (op : Byte) (s : State) : (prepareIssue op s).capture = s.capture := rfl
@[simp] theorem prepareIssue_timer (op : Byte) (s : State) : (prepareIssue op s).timer = s.timer := rfl
@[simp] theorem prepareIssue_mark (op : Byte) (s : State) : (prepareIssue op s).mark = s.mark := rfl
@[simp] theorem prepareIssue_gaps (op : Byte) (s : State) : (prepareIssue op s).gaps = s.gaps := rfl
@[simp] theorem prepareIssue_lost (op : Byte) (s : State) : (prepareIssue op s).lost = s.lost := rfl
@[simp] theorem prepareIssue_wires (op : Byte) (s : State) : (prepareIssue op s).wires = s.wires := rfl
@[simp] theorem prepareIssue_hostProgram (op : Byte) (s : State) : (prepareIssue op s).hostProgram = s.hostProgram := rfl
@[simp] theorem prepareIssue_now (op : Byte) (s : State) : (prepareIssue op s).now = s.now := rfl
@[simp] theorem prepareIssue_out (op : Byte) (s : State) : (prepareIssue op s).out = s.out := rfl

/-! ### finish -/

@[simp] theorem finish_params (c : Result) (s : State) : (finish c s).params = s.params := rfl
@[simp] theorem finish_ctrl (c : Result) (s : State) : (finish c s).ctrl = s.ctrl := rfl
@[simp] theorem finish_devaddr (c : Result) (s : State) : (finish c s).devaddr = s.devaddr := rfl
@[simp] theorem finish_settle (c : Result) (s : State) : (finish c s).settle = s.settle := rfl
@[simp] theorem finish_gap (c : Result) (s : State) : (finish c s).gap = s.gap := rfl
@[simp] theorem finish_maxgap (c : Result) (s : State) : (finish c s).maxgap = s.maxgap := rfl
@[simp] theorem finish_arg (c : Result) (s : State) : (finish c s).arg = s.arg := rfl
@[simp] theorem finish_status (c : Result) (s : State) : (finish c s).status = { s.status with result := c, done := true } := rfl
@[simp] theorem finish_meas (c : Result) (s : State) : (finish c s).meas = s.meas := rfl
@[simp] theorem finish_measV (c : Result) (s : State) : (finish c s).measV = s.measV := rfl
@[simp] theorem finish_measI (c : Result) (s : State) : (finish c s).measI = s.measI := rfl
@[simp] theorem finish_phase (c : Result) (s : State) : (finish c s).phase = s.phase := rfl
@[simp] theorem finish_txbuf (c : Result) (s : State) : (finish c s).txbuf = s.txbuf := rfl
@[simp] theorem finish_txlen (c : Result) (s : State) : (finish c s).txlen = s.txlen := rfl
@[simp] theorem finish_txidx (c : Result) (s : State) : (finish c s).txidx = s.txidx := rfl
@[simp] theorem finish_rxbuf (c : Result) (s : State) : (finish c s).rxbuf = s.rxbuf := rfl
@[simp] theorem finish_rxlen (c : Result) (s : State) : (finish c s).rxlen = s.rxlen := rfl
@[simp] theorem finish_capture (c : Result) (s : State) : (finish c s).capture = s.capture := rfl
@[simp] theorem finish_timer (c : Result) (s : State) : (finish c s).timer = s.timer := rfl
@[simp] theorem finish_mark (c : Result) (s : State) : (finish c s).mark = s.mark := rfl
@[simp] theorem finish_gaps (c : Result) (s : State) : (finish c s).gaps = s.gaps := rfl
@[simp] theorem finish_lost (c : Result) (s : State) : (finish c s).lost = s.lost := rfl
@[simp] theorem finish_wires (c : Result) (s : State) : (finish c s).wires = s.wires := rfl
@[simp] theorem finish_hostProgram (c : Result) (s : State) : (finish c s).hostProgram = s.hostProgram := rfl
@[simp] theorem finish_now (c : Result) (s : State) : (finish c s).now = s.now := rfl
@[simp] theorem finish_out (c : Result) (s : State) : (finish c s).out = s.out := rfl

/-! ### startTransaction -/

@[simp] theorem startTransaction_params (f : List Byte) (s : State) : (startTransaction f s).params = s.params := rfl
@[simp] theorem startTransaction_ctrl (f : List Byte) (s : State) : (startTransaction f s).ctrl = s.ctrl := rfl
@[simp] theorem startTransaction_devaddr (f : List Byte) (s : State) : (startTransaction f s).devaddr = s.devaddr := rfl
@[simp] theorem startTransaction_settle (f : List Byte) (s : State) : (startTransaction f s).settle = s.settle := rfl
@[simp] theorem startTransaction_gap (f : List Byte) (s : State) : (startTransaction f s).gap = s.gap := rfl
@[simp] theorem startTransaction_maxgap (f : List Byte) (s : State) : (startTransaction f s).maxgap = s.maxgap := rfl
@[simp] theorem startTransaction_arg (f : List Byte) (s : State) : (startTransaction f s).arg = s.arg := rfl
@[simp] theorem startTransaction_status (f : List Byte) (s : State) : (startTransaction f s).status = { s.status with busy := true } := rfl
@[simp] theorem startTransaction_meas (f : List Byte) (s : State) : (startTransaction f s).meas = s.meas := rfl
@[simp] theorem startTransaction_measV (f : List Byte) (s : State) : (startTransaction f s).measV = s.measV := rfl
@[simp] theorem startTransaction_measI (f : List Byte) (s : State) : (startTransaction f s).measI = s.measI := rfl
@[simp] theorem startTransaction_phase (f : List Byte) (s : State) : (startTransaction f s).phase = .tx := rfl
@[simp] theorem startTransaction_txbuf (f : List Byte) (s : State) : (startTransaction f s).txbuf = Memory.writeBytes s.txbuf 0 f := rfl
@[simp] theorem startTransaction_txlen (f : List Byte) (s : State) : (startTransaction f s).txlen = f.length := rfl
@[simp] theorem startTransaction_txidx (f : List Byte) (s : State) : (startTransaction f s).txidx = 0 := rfl
@[simp] theorem startTransaction_rxbuf (f : List Byte) (s : State) : (startTransaction f s).rxbuf = s.rxbuf := rfl
@[simp] theorem startTransaction_rxlen (f : List Byte) (s : State) : (startTransaction f s).rxlen = 0 := rfl
@[simp] theorem startTransaction_capture (f : List Byte) (s : State) : (startTransaction f s).capture = true := rfl
@[simp] theorem startTransaction_timer (f : List Byte) (s : State) : (startTransaction f s).timer = 0#32 := rfl
@[simp] theorem startTransaction_mark (f : List Byte) (s : State) : (startTransaction f s).mark = 0 := rfl
@[simp] theorem startTransaction_gaps (f : List Byte) (s : State) : (startTransaction f s).gaps = 0#32 := rfl
@[simp] theorem startTransaction_lost (f : List Byte) (s : State) : (startTransaction f s).lost = false := rfl
@[simp] theorem startTransaction_wires (f : List Byte) (s : State) : (startTransaction f s).wires = s.wires := rfl
@[simp] theorem startTransaction_hostProgram (f : List Byte) (s : State) : (startTransaction f s).hostProgram = s.hostProgram := rfl
@[simp] theorem startTransaction_now (f : List Byte) (s : State) : (startTransaction f s).now = s.now := rfl
@[simp] theorem startTransaction_out (f : List Byte) (s : State) : (startTransaction f s).out = s.out := rfl

/-! ### setMeas -/

@[simp] theorem setMeas_params (m : Measurement) (s : State) : (setMeas m s).params = s.params := rfl
@[simp] theorem setMeas_ctrl (m : Measurement) (s : State) : (setMeas m s).ctrl = s.ctrl := rfl
@[simp] theorem setMeas_devaddr (m : Measurement) (s : State) : (setMeas m s).devaddr = s.devaddr := rfl
@[simp] theorem setMeas_settle (m : Measurement) (s : State) : (setMeas m s).settle = s.settle := rfl
@[simp] theorem setMeas_gap (m : Measurement) (s : State) : (setMeas m s).gap = s.gap := rfl
@[simp] theorem setMeas_maxgap (m : Measurement) (s : State) : (setMeas m s).maxgap = s.maxgap := rfl
@[simp] theorem setMeas_arg (m : Measurement) (s : State) : (setMeas m s).arg = s.arg := rfl
@[simp] theorem setMeas_status (m : Measurement) (s : State) : (setMeas m s).status = s.status := rfl
@[simp] theorem setMeas_meas (m : Measurement) (s : State) : (setMeas m s).meas = { valid := true, on := m.on, mode := m.mode, rawstat := m.raw } := rfl
@[simp] theorem setMeas_measV (m : Measurement) (s : State) : (setMeas m s).measV = m.mv := rfl
@[simp] theorem setMeas_measI (m : Measurement) (s : State) : (setMeas m s).measI = m.ma := rfl
@[simp] theorem setMeas_phase (m : Measurement) (s : State) : (setMeas m s).phase = s.phase := rfl
@[simp] theorem setMeas_txbuf (m : Measurement) (s : State) : (setMeas m s).txbuf = s.txbuf := rfl
@[simp] theorem setMeas_txlen (m : Measurement) (s : State) : (setMeas m s).txlen = s.txlen := rfl
@[simp] theorem setMeas_txidx (m : Measurement) (s : State) : (setMeas m s).txidx = s.txidx := rfl
@[simp] theorem setMeas_rxbuf (m : Measurement) (s : State) : (setMeas m s).rxbuf = s.rxbuf := rfl
@[simp] theorem setMeas_rxlen (m : Measurement) (s : State) : (setMeas m s).rxlen = s.rxlen := rfl
@[simp] theorem setMeas_capture (m : Measurement) (s : State) : (setMeas m s).capture = s.capture := rfl
@[simp] theorem setMeas_timer (m : Measurement) (s : State) : (setMeas m s).timer = s.timer := rfl
@[simp] theorem setMeas_mark (m : Measurement) (s : State) : (setMeas m s).mark = s.mark := rfl
@[simp] theorem setMeas_gaps (m : Measurement) (s : State) : (setMeas m s).gaps = s.gaps := rfl
@[simp] theorem setMeas_lost (m : Measurement) (s : State) : (setMeas m s).lost = s.lost := rfl
@[simp] theorem setMeas_wires (m : Measurement) (s : State) : (setMeas m s).wires = s.wires := rfl
@[simp] theorem setMeas_hostProgram (m : Measurement) (s : State) : (setMeas m s).hostProgram = s.hostProgram := rfl
@[simp] theorem setMeas_now (m : Measurement) (s : State) : (setMeas m s).now = s.now := rfl
@[simp] theorem setMeas_out (m : Measurement) (s : State) : (setMeas m s).out = s.out := rfl

/-! ### clearMeas -/

@[simp] theorem clearMeas_params (s : State) : (clearMeas s).params = s.params := rfl
@[simp] theorem clearMeas_ctrl (s : State) : (clearMeas s).ctrl = s.ctrl := rfl
@[simp] theorem clearMeas_devaddr (s : State) : (clearMeas s).devaddr = s.devaddr := rfl
@[simp] theorem clearMeas_settle (s : State) : (clearMeas s).settle = s.settle := rfl
@[simp] theorem clearMeas_gap (s : State) : (clearMeas s).gap = s.gap := rfl
@[simp] theorem clearMeas_maxgap (s : State) : (clearMeas s).maxgap = s.maxgap := rfl
@[simp] theorem clearMeas_arg (s : State) : (clearMeas s).arg = s.arg := rfl
@[simp] theorem clearMeas_status (s : State) : (clearMeas s).status = s.status := rfl
@[simp] theorem clearMeas_meas (s : State) : (clearMeas s).meas = { valid := false, on := false, mode := .cv, rawstat := 0#8 } := rfl
@[simp] theorem clearMeas_measV (s : State) : (clearMeas s).measV = 0#24 := rfl
@[simp] theorem clearMeas_measI (s : State) : (clearMeas s).measI = 0#24 := rfl
@[simp] theorem clearMeas_phase (s : State) : (clearMeas s).phase = s.phase := rfl
@[simp] theorem clearMeas_txbuf (s : State) : (clearMeas s).txbuf = s.txbuf := rfl
@[simp] theorem clearMeas_txlen (s : State) : (clearMeas s).txlen = s.txlen := rfl
@[simp] theorem clearMeas_txidx (s : State) : (clearMeas s).txidx = s.txidx := rfl
@[simp] theorem clearMeas_rxbuf (s : State) : (clearMeas s).rxbuf = s.rxbuf := rfl
@[simp] theorem clearMeas_rxlen (s : State) : (clearMeas s).rxlen = s.rxlen := rfl
@[simp] theorem clearMeas_capture (s : State) : (clearMeas s).capture = s.capture := rfl
@[simp] theorem clearMeas_timer (s : State) : (clearMeas s).timer = s.timer := rfl
@[simp] theorem clearMeas_mark (s : State) : (clearMeas s).mark = s.mark := rfl
@[simp] theorem clearMeas_gaps (s : State) : (clearMeas s).gaps = s.gaps := rfl
@[simp] theorem clearMeas_lost (s : State) : (clearMeas s).lost = s.lost := rfl
@[simp] theorem clearMeas_wires (s : State) : (clearMeas s).wires = s.wires := rfl
@[simp] theorem clearMeas_hostProgram (s : State) : (clearMeas s).hostProgram = s.hostProgram := rfl
@[simp] theorem clearMeas_now (s : State) : (clearMeas s).now = s.now := rfl
@[simp] theorem clearMeas_out (s : State) : (clearMeas s).out = s.out := rfl

/-! ### setReadData -/

@[simp] theorem setReadData_params (v : Word) (s : State) : (setReadData v s).params = s.params := rfl
@[simp] theorem setReadData_ctrl (v : Word) (s : State) : (setReadData v s).ctrl = s.ctrl := rfl
@[simp] theorem setReadData_devaddr (v : Word) (s : State) : (setReadData v s).devaddr = s.devaddr := rfl
@[simp] theorem setReadData_settle (v : Word) (s : State) : (setReadData v s).settle = s.settle := rfl
@[simp] theorem setReadData_gap (v : Word) (s : State) : (setReadData v s).gap = s.gap := rfl
@[simp] theorem setReadData_maxgap (v : Word) (s : State) : (setReadData v s).maxgap = s.maxgap := rfl
@[simp] theorem setReadData_arg (v : Word) (s : State) : (setReadData v s).arg = s.arg := rfl
@[simp] theorem setReadData_status (v : Word) (s : State) : (setReadData v s).status = s.status := rfl
@[simp] theorem setReadData_meas (v : Word) (s : State) : (setReadData v s).meas = s.meas := rfl
@[simp] theorem setReadData_measV (v : Word) (s : State) : (setReadData v s).measV = s.measV := rfl
@[simp] theorem setReadData_measI (v : Word) (s : State) : (setReadData v s).measI = s.measI := rfl
@[simp] theorem setReadData_phase (v : Word) (s : State) : (setReadData v s).phase = s.phase := rfl
@[simp] theorem setReadData_txbuf (v : Word) (s : State) : (setReadData v s).txbuf = s.txbuf := rfl
@[simp] theorem setReadData_txlen (v : Word) (s : State) : (setReadData v s).txlen = s.txlen := rfl
@[simp] theorem setReadData_txidx (v : Word) (s : State) : (setReadData v s).txidx = s.txidx := rfl
@[simp] theorem setReadData_rxbuf (v : Word) (s : State) : (setReadData v s).rxbuf = s.rxbuf := rfl
@[simp] theorem setReadData_rxlen (v : Word) (s : State) : (setReadData v s).rxlen = s.rxlen := rfl
@[simp] theorem setReadData_capture (v : Word) (s : State) : (setReadData v s).capture = s.capture := rfl
@[simp] theorem setReadData_timer (v : Word) (s : State) : (setReadData v s).timer = s.timer := rfl
@[simp] theorem setReadData_mark (v : Word) (s : State) : (setReadData v s).mark = s.mark := rfl
@[simp] theorem setReadData_gaps (v : Word) (s : State) : (setReadData v s).gaps = s.gaps := rfl
@[simp] theorem setReadData_lost (v : Word) (s : State) : (setReadData v s).lost = s.lost := rfl
@[simp] theorem setReadData_wires (v : Word) (s : State) : (setReadData v s).wires = s.wires := rfl
@[simp] theorem setReadData_hostProgram (v : Word) (s : State) : (setReadData v s).hostProgram = s.hostProgram := rfl
@[simp] theorem setReadData_now (v : Word) (s : State) : (setReadData v s).now = s.now := rfl
@[simp] theorem setReadData_out (v : Word) (s : State) : (setReadData v s).out = { s.out with hRdata := v } := rfl

/-! ### startStep -/

@[simp] theorem startStep_params (s : State) : (startStep s).params = s.params := rfl
@[simp] theorem startStep_ctrl (s : State) : (startStep s).ctrl = s.ctrl := rfl
@[simp] theorem startStep_devaddr (s : State) : (startStep s).devaddr = s.devaddr := rfl
@[simp] theorem startStep_settle (s : State) : (startStep s).settle = s.settle := rfl
@[simp] theorem startStep_gap (s : State) : (startStep s).gap = s.gap := rfl
@[simp] theorem startStep_maxgap (s : State) : (startStep s).maxgap = s.maxgap := rfl
@[simp] theorem startStep_arg (s : State) : (startStep s).arg = s.arg := rfl
@[simp] theorem startStep_status (s : State) : (startStep s).status = s.status := rfl
@[simp] theorem startStep_meas (s : State) : (startStep s).meas = s.meas := rfl
@[simp] theorem startStep_measV (s : State) : (startStep s).measV = s.measV := rfl
@[simp] theorem startStep_measI (s : State) : (startStep s).measI = s.measI := rfl
@[simp] theorem startStep_phase (s : State) : (startStep s).phase = s.phase := rfl
@[simp] theorem startStep_txbuf (s : State) : (startStep s).txbuf = s.txbuf := rfl
@[simp] theorem startStep_txlen (s : State) : (startStep s).txlen = s.txlen := rfl
@[simp] theorem startStep_txidx (s : State) : (startStep s).txidx = s.txidx := rfl
@[simp] theorem startStep_rxbuf (s : State) : (startStep s).rxbuf = s.rxbuf := rfl
@[simp] theorem startStep_rxlen (s : State) : (startStep s).rxlen = s.rxlen := rfl
@[simp] theorem startStep_capture (s : State) : (startStep s).capture = s.capture := rfl
@[simp] theorem startStep_timer (s : State) : (startStep s).timer = s.timer := rfl
@[simp] theorem startStep_mark (s : State) : (startStep s).mark = s.mark := rfl
@[simp] theorem startStep_gaps (s : State) : (startStep s).gaps = s.gaps := rfl
@[simp] theorem startStep_lost (s : State) : (startStep s).lost = s.lost := rfl
@[simp] theorem startStep_wires (s : State) : (startStep s).wires = s.wires.tail := rfl
@[simp] theorem startStep_hostProgram (s : State) : (startStep s).hostProgram = s.hostProgram := rfl
@[simp] theorem startStep_now (s : State) : (startStep s).now = s.now + 1 := rfl
@[simp] theorem startStep_out (s : State) : (startStep s).out = { s.out with txValid := txValid s, txData := txData s } := rfl

/-! ### refuseWrite -/

@[simp] theorem refuseWrite_params (s : State) : (refuseWrite s).params = s.params := rfl
@[simp] theorem refuseWrite_ctrl (s : State) : (refuseWrite s).ctrl = s.ctrl := rfl
@[simp] theorem refuseWrite_devaddr (s : State) : (refuseWrite s).devaddr = s.devaddr := rfl
@[simp] theorem refuseWrite_settle (s : State) : (refuseWrite s).settle = s.settle := rfl
@[simp] theorem refuseWrite_gap (s : State) : (refuseWrite s).gap = s.gap := rfl
@[simp] theorem refuseWrite_maxgap (s : State) : (refuseWrite s).maxgap = s.maxgap := rfl
@[simp] theorem refuseWrite_arg (s : State) : (refuseWrite s).arg = s.arg := rfl
@[simp] theorem refuseWrite_status (s : State) : (refuseWrite s).status = { s.status with ovr := true } := rfl
@[simp] theorem refuseWrite_meas (s : State) : (refuseWrite s).meas = s.meas := rfl
@[simp] theorem refuseWrite_measV (s : State) : (refuseWrite s).measV = s.measV := rfl
@[simp] theorem refuseWrite_measI (s : State) : (refuseWrite s).measI = s.measI := rfl
@[simp] theorem refuseWrite_phase (s : State) : (refuseWrite s).phase = s.phase := rfl
@[simp] theorem refuseWrite_txbuf (s : State) : (refuseWrite s).txbuf = s.txbuf := rfl
@[simp] theorem refuseWrite_txlen (s : State) : (refuseWrite s).txlen = s.txlen := rfl
@[simp] theorem refuseWrite_txidx (s : State) : (refuseWrite s).txidx = s.txidx := rfl
@[simp] theorem refuseWrite_rxbuf (s : State) : (refuseWrite s).rxbuf = s.rxbuf := rfl
@[simp] theorem refuseWrite_rxlen (s : State) : (refuseWrite s).rxlen = s.rxlen := rfl
@[simp] theorem refuseWrite_capture (s : State) : (refuseWrite s).capture = s.capture := rfl
@[simp] theorem refuseWrite_timer (s : State) : (refuseWrite s).timer = s.timer := rfl
@[simp] theorem refuseWrite_mark (s : State) : (refuseWrite s).mark = s.mark := rfl
@[simp] theorem refuseWrite_gaps (s : State) : (refuseWrite s).gaps = s.gaps := rfl
@[simp] theorem refuseWrite_lost (s : State) : (refuseWrite s).lost = s.lost := rfl
@[simp] theorem refuseWrite_wires (s : State) : (refuseWrite s).wires = s.wires := rfl
@[simp] theorem refuseWrite_hostProgram (s : State) : (refuseWrite s).hostProgram = s.hostProgram := rfl
@[simp] theorem refuseWrite_now (s : State) : (refuseWrite s).now = s.now := rfl
@[simp] theorem refuseWrite_out (s : State) : (refuseWrite s).out = s.out := rfl

/-! ### concludeWrite -/

@[simp] theorem concludeWrite_params (s : State) : (concludeWrite s).params = s.params := rfl
@[simp] theorem concludeWrite_ctrl (s : State) : (concludeWrite s).ctrl = s.ctrl := rfl
@[simp] theorem concludeWrite_devaddr (s : State) : (concludeWrite s).devaddr = s.devaddr := rfl
@[simp] theorem concludeWrite_settle (s : State) : (concludeWrite s).settle = s.settle := rfl
@[simp] theorem concludeWrite_gap (s : State) : (concludeWrite s).gap = s.gap := rfl
@[simp] theorem concludeWrite_maxgap (s : State) : (concludeWrite s).maxgap = s.maxgap := rfl
@[simp] theorem concludeWrite_arg (s : State) : (concludeWrite s).arg = s.arg := rfl
@[simp] theorem concludeWrite_status (s : State) : (concludeWrite s).status = { s.status with result := classifyWrite (rxReply s) (txFrame s) s.status.expired s.status.rxovf s.ctrl.echo } := rfl
@[simp] theorem concludeWrite_meas (s : State) : (concludeWrite s).meas = s.meas := rfl
@[simp] theorem concludeWrite_measV (s : State) : (concludeWrite s).measV = s.measV := rfl
@[simp] theorem concludeWrite_measI (s : State) : (concludeWrite s).measI = s.measI := rfl
@[simp] theorem concludeWrite_phase (s : State) : (concludeWrite s).phase = s.phase := rfl
@[simp] theorem concludeWrite_txbuf (s : State) : (concludeWrite s).txbuf = s.txbuf := rfl
@[simp] theorem concludeWrite_txlen (s : State) : (concludeWrite s).txlen = s.txlen := rfl
@[simp] theorem concludeWrite_txidx (s : State) : (concludeWrite s).txidx = s.txidx := rfl
@[simp] theorem concludeWrite_rxbuf (s : State) : (concludeWrite s).rxbuf = s.rxbuf := rfl
@[simp] theorem concludeWrite_rxlen (s : State) : (concludeWrite s).rxlen = s.rxlen := rfl
@[simp] theorem concludeWrite_capture (s : State) : (concludeWrite s).capture = s.capture := rfl
@[simp] theorem concludeWrite_timer (s : State) : (concludeWrite s).timer = s.timer := rfl
@[simp] theorem concludeWrite_mark (s : State) : (concludeWrite s).mark = s.mark := rfl
@[simp] theorem concludeWrite_gaps (s : State) : (concludeWrite s).gaps = s.gaps := rfl
@[simp] theorem concludeWrite_lost (s : State) : (concludeWrite s).lost = s.lost := rfl
@[simp] theorem concludeWrite_wires (s : State) : (concludeWrite s).wires = s.wires := rfl
@[simp] theorem concludeWrite_hostProgram (s : State) : (concludeWrite s).hostProgram = s.hostProgram := rfl
@[simp] theorem concludeWrite_now (s : State) : (concludeWrite s).now = s.now := rfl
@[simp] theorem concludeWrite_out (s : State) : (concludeWrite s).out = s.out := rfl

/-! ### STATUS at issue -/

@[simp] theorem issued_busy (st : Status) (op : Byte) : (st.issued op).busy = st.busy := rfl
@[simp] theorem issued_done (st : Status) (op : Byte) : (st.issued op).done = false := rfl
@[simp] theorem issued_ovr (st : Status) (op : Byte) : (st.issued op).ovr = false := rfl
@[simp] theorem issued_rxovf (st : Status) (op : Byte) : (st.issued op).rxovf = false := rfl
@[simp] theorem issued_expired (st : Status) (op : Byte) : (st.issued op).expired = false := rfl
@[simp] theorem issued_result (st : Status) (op : Byte) : (st.issued op).result = st.result := rfl
@[simp] theorem issued_lastop (st : Status) (op : Byte) : (st.issued op).lastop = op := rfl

end Sys2Proof.Machine
end

