-- ==== Sys2Proof/Laws/Step.lean ====
section
/-! SUPPORT. What each shared operation, each phase and the step can do, said once: proofs cite these and unfold nothing. -/

namespace Sys2Proof.Machine

/-! ### Receive -/

theorem receive_cases (v : Bool) (d : Byte) (s : State) :
    ((v = false ∨ s.capture = false) ∧ receive v d s = s) ∨
    (v = true ∧ s.capture = true ∧ s.rxlen < s.params.rxbufDepth ∧
      receive v d s = { s with rxbuf := Memory.write s.rxbuf s.rxlen d, rxlen := s.rxlen + 1 }) ∨
    (v = true ∧ s.capture = true ∧ s.params.rxbufDepth ≤ s.rxlen ∧
      receive v d s = { s with status := { s.status with rxovf := true }, lost := true }) := by
  unfold receive
  cases v
  · exact .inl ⟨.inl rfl, by simp⟩
  · cases hc : s.capture
    · exact .inl ⟨.inr rfl, by simp⟩
    · by_cases h : s.rxlen < s.params.rxbufDepth
      · exact .inr (.inl ⟨rfl, rfl, h, by simp [h]⟩)
      · exact .inr (.inr ⟨rfl, rfl, not_lt.1 h, by simp [h]⟩)

/-- Receive changes RXBUF, RXLEN, RXOVF and the model's own `lost` only. -/
theorem receive_frame (v : Bool) (d : Byte) (s : State) :
    receive v d s =
      { s with
        rxbuf := (receive v d s).rxbuf, rxlen := (receive v d s).rxlen, lost := (receive v d s).lost
        status := { s.status with rxovf := (receive v d s).status.rxovf } } := by
  rcases receive_cases v d s with ⟨_, h⟩ | ⟨_, _, _, h⟩ | ⟨_, _, _, h⟩ <;> rw [h]

theorem receive_wf (v : Bool) (d : Byte) (s : State) (h : Memory.wf s.rxbuf) : Memory.wf (receive v d s).rxbuf := by
  rcases receive_cases v d s with ⟨_, e⟩ | ⟨_, _, _, e⟩ | ⟨_, _, _, e⟩ <;> rw [e]
  · exact h
  · exact Memory.write_wf _ _ _ h
  · exact h

/-! ### Classification -/

theorem classifyWrite_result (r sent : List Byte) (e o m : Bool) :
    classifyWrite r sent e o m = .ok ∨ classifyWrite r sent e o m = .noReply ∨
      classifyWrite r sent e o m = .notConfirmed := by
  unfold classifyWrite; split_ifs <;> simp

/-! ### Terminate and Poll -/

/-- Terminate changes CAPTURE, PHASE, STATUS and the measurement registers only. -/
theorem terminate_frame (s : State) :
    terminate s =
      { s with
        capture := false, phase := .idle
        status := { s.status with busy := false, done := true, result := (terminate s).status.result }
        meas := (terminate s).meas, measV := (terminate s).measV, measI := (terminate s).measI } := by
  unfold terminate
  cases opQuantity s.status.lastop with
  | some q => rfl
  | none =>
    simp only [concludeRead]
    split <;> rfl

theorem terminate_result (s : State) :
    (terminate s).status.result = .ok ∨ (terminate s).status.result = .noReply ∨
      (terminate s).status.result = .notConfirmed := by
  unfold terminate
  cases opQuantity s.status.lastop with
  | some q => exact classifyWrite_result ..
  | none =>
    simp only [concludeRead]
    split <;> simp

/-- The termination of a SET command, whole. -/
theorem terminate_write (s : State) (q : Quantity) (h : opQuantity s.status.lastop = some q) :
    terminate s =
      { s with
        capture := false, phase := .idle
        status :=
          { s.status with
            busy := false, done := true
            result := classifyWrite (rxReply s) (txFrame s) s.status.expired s.status.rxovf s.ctrl.echo } } := by
  simp only [terminate, h]; rfl

/-- The termination of the read, whole. -/
theorem terminate_read (s : State) (h : opQuantity s.status.lastop = none) :
    terminate s =
      match classifyRead s.params (rxReply s) s.devaddr s.ctrl.rxcrc s.status.expired s.status.rxovf with
      | some p =>
        setMeas (decodeMeas p)
          { s with
            capture := false, phase := .idle
            status := { s.status with busy := false, done := true, result := .ok } }
      | none =>
        clearMeas
          { s with
            capture := false, phase := .idle
            status := { s.status with busy := false, done := true, result := .noReply } } := by
  simp only [terminate, h]; rfl

/-- The termination of a SET command keeps the measurement registers. -/
theorem terminate_write_meas (s : State) (q : Quantity) (h : opQuantity s.status.lastop = some q) :
    (terminate s).meas = s.meas ∧ (terminate s).measV = s.measV ∧ (terminate s).measI = s.measI := by
  simp [terminate, h]

/-- The termination of a read leaves either a measurement with VALID or cleared registers. -/
theorem terminate_read_meas (s : State) (h : opQuantity s.status.lastop = none) :
    (terminate s).meas.valid = true ∨
      ((terminate s).meas = { valid := false, on := false, mode := .cv, rawstat := 0#8 } ∧
        (terminate s).measV = 0#24 ∧ (terminate s).measI = 0#24) := by
  simp only [terminate, h, concludeRead]
  split <;> simp

@[simp] theorem terminate_phase (s : State) : (terminate s).phase = .idle := by rw [terminate_frame]
@[simp] theorem terminate_busy (s : State) : (terminate s).status.busy = false := by rw [terminate_frame]
@[simp] theorem terminate_done (s : State) : (terminate s).status.done = true := by rw [terminate_frame]

theorem poll_cases (s : State) :
    (quietPoll s = true ∧ poll s = terminate s) ∨
    (quietPoll s = false ∧ s.maxgap ≠ 0#32 ∧ s.gaps = s.maxgap ∧
      poll s = terminate { s with status := { s.status with expired := true } }) ∨
    (quietPoll s = false ∧ (s.maxgap = 0#32 ∨ s.gaps ≠ s.maxgap) ∧
      poll s = { s with mark := s.rxlen, gaps := s.gaps + 1#32, timer := s.gap, lost := false }) := by
  unfold poll
  cases hq : quietPoll s
  · by_cases h : s.maxgap ≠ 0#32 ∧ s.gaps = s.maxgap
    · exact .inr (.inl ⟨rfl, h.1, h.2, by simp [h]⟩)
    · refine .inr (.inr ⟨rfl, by tauto, by simp [h]⟩)
  · exact .inl ⟨rfl, by simp⟩

/-- After a step with a byte a poll is not quiet, with or without room in RXBUF (R561, R568, R581). -/
theorem quietPoll_receive_byte (d : Byte) (s : State) (hc : s.capture = true) (hm : s.mark ≤ s.rxlen) :
    quietPoll (receive true d s) = false := by
  rcases receive_cases true d s with ⟨h, _⟩ | ⟨_, _, _, e⟩ | ⟨_, _, _, e⟩
  · rcases h with h | h
    · cases h
    · rw [hc] at h; cases h
  · have : s.rxlen + 1 ≠ s.mark := by omega
    rw [e]; simp [quietPoll, this]
  · rw [e]; simp [quietPoll]

/-- Receive never makes a poll quiet that was not. -/
theorem quietPoll_receive_keep (v : Bool) (d : Byte) (s : State) (hm : s.mark ≤ s.rxlen) (h : quietPoll s = false) :
    quietPoll (receive v d s) = false := by
  rcases receive_cases v d s with ⟨_, e⟩ | ⟨_, _, _, e⟩ | ⟨_, _, _, e⟩
  · rw [e]; exact h
  · have : s.rxlen + 1 ≠ s.mark := by omega
    rw [e]; simp [quietPoll, this]
  · rw [e]; simp [quietPoll]

/-! ### Advance -/

theorem transmit_cases (r : Bool) (s : State) :
    (r = false ∧ transmit r s = s) ∨
    (r = true ∧ s.txidx + 1 ≠ s.txlen ∧ transmit r s = { s with txidx := s.txidx + 1 }) ∨
    (r = true ∧ s.txidx + 1 = s.txlen ∧
      transmit r s = { s with txidx := s.txidx + 1, phase := .wait, timer := s.settle }) := by
  unfold transmit
  cases r
  · simp
  · by_cases h : s.txidx + 1 = s.txlen <;> simp [h]

theorem waitTick_cases (s : State) :
    (2 ≤ s.timer.toNat ∧ waitTick s = { s with timer := s.timer - 1#32 }) ∨
    (s.timer.toNat ≤ 1 ∧ waitTick s = poll { s with timer := 0#32 }) := by
  unfold waitTick
  by_cases h0 : s.timer = 0#32
  · exact .inr ⟨by simp [h0], by simp [h0]⟩
  · by_cases h1 : s.timer = 1#32
    · exact .inr ⟨by simp [h1], by simp [h1]⟩
    · have hpos : 0#32 < s.timer := by bv_omega
      have hne : s.timer - 1#32 ≠ 0#32 := by bv_omega
      refine .inl ⟨by bv_omega, ?_⟩
      simp only [hpos, if_true, hne, if_false]

@[simp] theorem advance_idle (r : Bool) (s : State) (h : s.phase = .idle) : advance r s = s := by simp [advance, h]
@[simp] theorem advance_tx (r : Bool) (s : State) (h : s.phase = .tx) : advance r s = transmit r s := by simp [advance, h]
@[simp] theorem advance_wait (r : Bool) (s : State) (h : s.phase = .wait) : advance r s = waitTick s := by
  simp [advance, h]

/-- Advance never touches a setting, TXBUF, RXBUF, RXLEN, or what stands outside the block. -/
theorem advance_frame (r : Bool) (s : State) :
    advance r s =
      { s with
        status := (advance r s).status, meas := (advance r s).meas, measV := (advance r s).measV
        measI := (advance r s).measI, phase := (advance r s).phase, txidx := (advance r s).txidx
        capture := (advance r s).capture, timer := (advance r s).timer, mark := (advance r s).mark
        gaps := (advance r s).gaps, lost := (advance r s).lost } := by
  cases h : s.phase with
  | idle => rw [advance_idle r s h]
  | tx => rw [advance_tx r s h]; rcases transmit_cases r s with ⟨_, e⟩ | ⟨_, _, e⟩ | ⟨_, _, e⟩ <;> rw [e]
  | wait =>
    rw [advance_wait r s h]
    rcases waitTick_cases s with ⟨_, e⟩ | ⟨_, e⟩
    · rw [e]
    · rw [e]
      rcases poll_cases { s with timer := 0#32 } with ⟨_, e⟩ | ⟨_, _, _, e⟩ | ⟨_, _, e⟩
      · rw [e, terminate_frame]
      · rw [e, terminate_frame]
      · rw [e]

@[simp] theorem blockPhases_params (w : Wires) (s : State) : (blockPhases w s).params = s.params := by
  rw [blockPhases, advance_frame, receive_frame]
@[simp] theorem blockPhases_ctrl (w : Wires) (s : State) : (blockPhases w s).ctrl = s.ctrl := by
  rw [blockPhases, advance_frame, receive_frame]
@[simp] theorem blockPhases_devaddr (w : Wires) (s : State) : (blockPhases w s).devaddr = s.devaddr := by
  rw [blockPhases, advance_frame, receive_frame]
@[simp] theorem blockPhases_settle (w : Wires) (s : State) : (blockPhases w s).settle = s.settle := by
  rw [blockPhases, advance_frame, receive_frame]
@[simp] theorem blockPhases_gap (w : Wires) (s : State) : (blockPhases w s).gap = s.gap := by
  rw [blockPhases, advance_frame, receive_frame]
@[simp] theorem blockPhases_maxgap (w : Wires) (s : State) : (blockPhases w s).maxgap = s.maxgap := by
  rw [blockPhases, advance_frame, receive_frame]
@[simp] theorem blockPhases_arg (w : Wires) (s : State) : (blockPhases w s).arg = s.arg := by
  rw [blockPhases, advance_frame, receive_frame]
@[simp] theorem blockPhases_txbuf (w : Wires) (s : State) : (blockPhases w s).txbuf = s.txbuf := by
  rw [blockPhases, advance_frame, receive_frame]
@[simp] theorem blockPhases_txlen (w : Wires) (s : State) : (blockPhases w s).txlen = s.txlen := by
  rw [blockPhases, advance_frame, receive_frame]
@[simp] theorem blockPhases_wires (w : Wires) (s : State) : (blockPhases w s).wires = s.wires := by
  rw [blockPhases, advance_frame, receive_frame]
@[simp] theorem blockPhases_hostProgram (w : Wires) (s : State) : (blockPhases w s).hostProgram = s.hostProgram := by
  rw [blockPhases, advance_frame, receive_frame]
@[simp] theorem blockPhases_now (w : Wires) (s : State) : (blockPhases w s).now = s.now := by
  rw [blockPhases, advance_frame, receive_frame]
@[simp] theorem blockPhases_out (w : Wires) (s : State) : (blockPhases w s).out = s.out := by
  rw [blockPhases, advance_frame, receive_frame]

/-- Between transactions the block's phases do nothing: no byte is kept, none is sent (R575, R643). -/
theorem blockPhases_idle (w : Wires) (s : State) (hp : s.phase = .idle) (hc : s.capture = false) :
    blockPhases w s = s := by
  simp [blockPhases, receive, hc, hp]

/-! ### The host's access -/

theorem exec_next (i : Instr) (s : State) : ∃ t, exec i s = .next t := by cases i <;> exact ⟨_, rfl⟩

theorem execSet_cases (q : Quantity) (s : State) :
    (inRange q (sint32 s.arg) = false ∧ execSet q s = finish .invalidInput s) ∨
    (inRange q (sint32 s.arg) = true ∧ s.ctrl.en = false ∧ execSet q s = finish .closed s) ∨
    (inRange q (sint32 s.arg) = true ∧ s.ctrl.en = true ∧
      execSet q s = startTransaction (buildWrite s.params s.devaddr (quantityAddr q) s.arg) s) := by
  unfold execSet
  cases inRange q (sint32 s.arg) <;> cases s.ctrl.en <;> simp

theorem execGet_cases (s : State) :
    (s.ctrl.en = false ∧ execGet s = finish .closed (clearMeas s)) ∨
    (s.ctrl.en = true ∧ execGet s = startTransaction (buildRead s.params s.devaddr) s) := by
  unfold execGet
  cases s.ctrl.en <;> simp

/-- The outcomes of a command's issue step: a completion without I/O, or a transaction with the command's frame. -/
theorem exec_cases (i : Instr) (s t : State) (h : exec i s = .next t) :
    (∃ c, (c = .invalidInput ∨ c = .closed) ∧ i ≠ .getMeasurements ∧ t = finish c (prepareIssue (opcode i) s)) ∨
    (i = .getMeasurements ∧ s.ctrl.en = false ∧ t = finish .closed (clearMeas (prepareIssue (opcode i) s))) ∨
    (∃ q, opQuantity (opcode i) = some q ∧ inRange q (sint32 s.arg) = true ∧ s.ctrl.en = true ∧
      t = startTransaction (buildWrite s.params s.devaddr (quantityAddr q) s.arg) (prepareIssue (opcode i) s)) ∨
    (i = .getMeasurements ∧ s.ctrl.en = true ∧
      t = startTransaction (buildRead s.params s.devaddr) (prepareIssue (opcode i) s)) := by
  have set (q : Quantity) (hq : opQuantity (opcode i) = some q) (hi : i ≠ .getMeasurements)
      (ht : t = execSet q (prepareIssue (opcode i) s)) :
      (∃ c, (c = Result.invalidInput ∨ c = .closed) ∧ i ≠ .getMeasurements ∧
        t = finish c (prepareIssue (opcode i) s)) ∨
      (∃ q, opQuantity (opcode i) = some q ∧ inRange q (sint32 s.arg) = true ∧ s.ctrl.en = true ∧
        t = startTransaction (buildWrite s.params s.devaddr (quantityAddr q) s.arg) (prepareIssue (opcode i) s)) := by
    rcases execSet_cases q (prepareIssue (opcode i) s) with ⟨_, e⟩ | ⟨_, _, e⟩ | ⟨h1, h2, e⟩
    · exact .inl ⟨_, .inl rfl, hi, ht.trans e⟩
    · exact .inl ⟨_, .inr rfl, hi, ht.trans e⟩
    · exact .inr ⟨q, hq, h1, h2, ht.trans e⟩
  have inj {x : State} (e : exec i s = .next x) : t = x := by rw [h] at e; exact (Host.Outcome.next.inj e)
  cases i with
  | getMeasurements =>
    have ht := inj rfl
    cases he : s.ctrl.en with
    | false => exact .inr (.inl ⟨rfl, rfl, by rw [ht, execGet, prepareIssue_ctrl, he]; rfl⟩)
    | true => exact .inr (.inr (.inr ⟨rfl, rfl, by rw [ht, execGet, prepareIssue_ctrl, he]; rfl⟩))
  | _ => exact (set _ rfl (by decide) (inj rfl)).imp_right (fun x => .inr (.inl x))

/-- Everything a host access can do. `u` below is the state with the step's `h_rdata` in place. -/
theorem hostAccess_cases (p : HostPort) (s t : State) (h : hostAccess p s = .next t) :
    (p.req = false ∧ t = setReadData 0#32 s) ∨
    (p.req = true ∧ p.we = false ∧ t = setReadData (hostRead s p.idx) s) ∨
    (p.req = true ∧ p.we = true ∧ ∃ u, u = setReadData (Config.freeReadData s.now) s ∧
      ((∃ r, hostRegAt p.idx = some r ∧ guardedReg r = true ∧ s.status.busy = true ∧ t = refuseWrite u) ∨
       ((hostRegAt p.idx = none ∨ ∃ r, hostRegAt p.idx = some r ∧ guardedReg r = false) ∧ t = u) ∨
       (s.status.busy = false ∧
        t = { u with
          ctrl := t.ctrl, devaddr := t.devaddr, settle := t.settle, gap := t.gap, maxgap := t.maxgap, arg := t.arg }) ∨
       (hostRegAt p.idx = some .cmd ∧ s.status.busy = false ∧ ∃ i, decode p.wdata = .ok i ∧ exec i u = .next t) ∨
       (hostRegAt p.idx = some .cmd ∧ s.status.busy = false ∧
        ∃ op, decode p.wdata = .error (.reservedOp op) ∧ t = issueIllegal op u))) := by
  unfold hostAccess at h
  cases hr : p.req with
  | false => simp only [hr] at h; exact .inl ⟨rfl, (Host.Outcome.next.inj h).symm⟩
  | true =>
    cases hw : p.we with
    | false => simp only [hr, hw] at h; exact .inr (.inl ⟨rfl, rfl, (Host.Outcome.next.inj h).symm⟩)
    | true =>
      refine .inr (.inr ⟨rfl, rfl, _, rfl, ?_⟩)
      simp only [hr, hw, if_true, hostWrite] at h
      cases hi : hostRegAt p.idx with
      | none => rw [hi] at h; exact .inr (.inl ⟨.inl rfl, (Host.Outcome.next.inj h).symm⟩)
      | some r =>
        rw [hi] at h
        cases hb : s.status.busy with
        | true =>
          cases hg : guardedReg r with
          | true => simp only [hg, setReadData_status, hb] at h; exact .inl ⟨r, rfl, hg, rfl, (Host.Outcome.next.inj h).symm⟩
          | false =>
            simp only [hg, setReadData_status, hb] at h
            refine .inr (.inl ⟨.inr ⟨r, rfl, hg⟩, ?_⟩)
            cases r <;> first | exact (Host.Outcome.next.inj h).symm | cases hg
        | false =>
          simp only [setReadData_status, hb, Bool.and_false] at h
          cases r with
          | cmd =>
            simp only [acceptWrite, issue] at h
            cases hd : decode p.wdata with
            | ok i => rw [hd] at h; exact .inr (.inr (.inr (.inl ⟨rfl, rfl, i, rfl, h⟩)))
            | error e =>
              obtain ⟨op⟩ := e
              rw [hd] at h
              exact .inr (.inr (.inr (.inr ⟨rfl, rfl, op, rfl, (Host.Outcome.next.inj h).symm⟩)))
          | ctrl | devaddr | settle | gap | maxgap | arg =>
            exact .inr (.inr (.inl ⟨rfl, by rw [← Host.Outcome.next.inj h]⟩))
          | status | meas | measV | measI | rxlen =>
            exact .inr (.inl ⟨.inr ⟨_, rfl, rfl⟩, (Host.Outcome.next.inj h).symm⟩)

/-! ### The step -/

/-- Retiring a host line changes the host's lines only. -/
theorem retireLine_frame (s : State) : retireLine s = { s with hostProgram := (retireLine s).hostProgram } := by
  unfold retireLine
  split
  · rfl
  · split <;> rfl
  · rfl

@[simp] theorem retireLine_status (s : State) : (retireLine s).status = s.status := by rw [retireLine_frame]
@[simp] theorem retireLine_phase (s : State) : (retireLine s).phase = s.phase := by rw [retireLine_frame]

theorem afterBlock_reset (s : State) (h : (wiresNow s).rst = true) : afterBlock s = resetBlock (startStep s) := by
  simp [afterBlock, h]

theorem afterBlock_no_reset (s : State) (h : (wiresNow s).rst = false) :
    afterBlock s = blockPhases (wiresNow s) (startStep s) := by
  simp [afterBlock, h]

/-- A step is a reset step, or a host access on the state that the block's phases leave. -/
theorem step_cases (s t : State) (h : step s = .next t) :
    ((wiresNow s).rst = true ∧ t = setReadData 0#32 (retireLine (resetBlock (startStep s)))) ∨
    ((wiresNow s).rst = false ∧ hostAccess (hostPortNow s) (retireLine (blockPhases (wiresNow s) (startStep s))) = .next t) := by
  unfold step cycle beforeHost afterBlock at h
  cases hr : (wiresNow s).rst with
  | true => rw [hr] at h; exact .inl ⟨rfl, (Host.Outcome.next.inj h).symm⟩
  | false => rw [hr] at h; exact .inr ⟨rfl, h⟩

end Sys2Proof.Machine
end

