-- ==== Sys2Proof/Tests/Slice0.lean ====
section
/-! SUPPORT. The package's own tests. Expected values come from the spec's worked examples (95_test_vectors.md, with its
illustrative parameters) or by hand from its rules; each witness theorem shows a concrete case that meets the hypotheses of
the obligation it names. -/

namespace Sys2Proof.Tests

open Sys2Proof Sys2Proof.Machine

-- One theorem after the other: checked side by side, these kernel evaluations ask for a thread each.
set_option Elab.async false

/-! ### Small states -/

/-- The illustrative parameters (92 D39), with a clock of 30 Hz: SETTLE resets to 3 and GAP to 2. -/
def demo : Params :=
  { fClkNum := 30, fClkDen := 1, fcWrite := 0x06#8, fcRead := 0x03#8, rdBlock := 0x0300#16, rdQty := 0x0000#16
    devaddrReset := 0x01#8, rxbufDepth := 16 }

/-- No reset, no byte, the channel ready or not. -/
def still (ready : Bool) : Wires := { rst := false, rxValid := false, rxData := 0x00#8, txReady := ready }

/-- A byte arrives, the channel is ready. -/
def byteIn (b : Byte) : Wires := { rst := false, rxValid := true, rxData := b, txReady := true }

/-- Closed, right after reset. -/
def closed (ls : List HostLine) (ws : List Wires) : State :=
  { State.resetWith demo with hostProgram := ls, wires := ws }

/-- An open session between transactions, with ARG in place and an earlier measurement. -/
def opened (a : Word) (ls : List HostLine) (ws : List Wires) : State :=
  { closed ls ws with
    ctrl := { en := true, rxcrc := true, echo := false }
    arg := a
    meas := { valid := true, on := true, mode := .cc, rawstat := 0x03#8 }
    measV := 5000#24
    measI := 1000#24 }

/-- GET_MEASUREMENTS issued: its frame is being sent. -/
def getTx (ls : List HostLine) (ws : List Wires) : State :=
  let s := startTransaction (buildRead demo 0x01#8) (prepareIssue 0x07#8 (opened 0#32 [] []))
  { s with hostProgram := ls, wires := ws }

/-- GET_MEASUREMENTS waiting for its reply, with the given counters. -/
def getWait (timer gaps maxgap : Word) (mark : Nat) (ls : List HostLine) (ws : List Wires) : State :=
  { getTx ls ws with phase := .wait, txidx := 8, timer := timer, gaps := gaps, maxgap := maxgap, mark := mark }

/-- The next state of an outcome has a property. -/
def nextHas (o : Outcome) (p : State → Bool) : Bool :=
  match o with
  | .next t => p t
  | .fault _ => false
  | .refused _ => false

/-- Vector F1: SET_POWER_STATE on. -/
def f1 : List Byte :=
  [0x01#8, 0x06#8, 0x01#8, 0x0E#8, 0x00#8, 0x01#8, 0x04#8, 0x00#8, 0x00#8, 0x00#8, 0x01#8, 0x5F#8, 0xCA#8]

/-- Vector V-RD1. -/
def rd1 : List Byte :=
  [0x01#8, 0x03#8, 0x08#8, 0x03#8, 0x00#8, 0x00#8, 0x13#8, 0x88#8, 0x00#8, 0x03#8, 0xE8#8, 0x7B#8, 0x1F#8]

/-! ### WellFormed refuses -/

theorem test_wf_params : demo.wf = true := by decide
theorem test_wf_clock_zero : ({ demo with fClkNum := 0 } : Params).wf = false := by decide
theorem test_wf_clock_denominator : ({ demo with fClkDen := 0 } : Params).wf = false := by decide
theorem test_wf_small_buffer : ({ demo with rxbufDepth := 15 } : Params).wf = false := by decide
theorem test_wf_index : (SourceLine.rd (.index 16)).wf = false ∧ (SourceLine.rd (.index 15)).wf = true := by decide
theorem test_wf_write_index : (SourceLine.wr (.index 16) 0).wf = false := by decide
theorem test_wf_immediate :
    (SourceLine.wr (.named .arg) 0x100000000).wf = false ∧ (SourceLine.wr (.named .arg) 0xFFFFFFFF).wf = true := by decide
theorem test_wf_operand : (SourceLine.command .setMode 0x100000000).wf = false := by decide
theorem test_wf_get_operand : (SourceLine.command .getMeasurements 1).wf = false := by decide
theorem test_assemble_refuses : assemble [.idle, .rd (.index 16)] = none := by decide

/-! ### Decoding, from words written bit by bit (R300, R310): OP in bits 7:0 -/

theorem test_decode_bits :
    decode 0b00000000000000000000000000000001#32 = .ok .setPowerState ∧
    decode 0b00000000000000000000000000000010#32 = .ok .setMode ∧
    decode 0b00000000000000000000000000000011#32 = .ok .setVoltage ∧
    decode 0b00000000000000000000000000000100#32 = .ok .setCurrent ∧
    decode 0b00000000000000000000000000000101#32 = .ok .setResistance ∧
    decode 0b00000000000000000000000000000110#32 = .ok .setPower ∧
    decode 0b00000000000000000000000000000111#32 = .ok .getMeasurements := by decide

/-- Bits 31:8 are ignored (95 section 4: 0x0000_0103 is OP 0x03). -/
theorem test_decode_ignored_bits : decode 0b00000000000000000000000100000011#32 = .ok .setVoltage := by decide

theorem test_decode_reserved :
    decode 0x00000000#32 = .error (.reservedOp 0x00#8) ∧ decode 0x00000108#32 = .error (.reservedOp 0x08#8) := by decide

theorem test_decode_table_word :
    decodeTableWord 8 0x07 = some .getMeasurements ∧ decodeTableWord 8 0x08 = none ∧
    decodeTableWord 8 0x101 = some .setPowerState := by decide

theorem test_encode : encode .setPowerState = 0x00000001#32 ∧ encode .getMeasurements = 0x00000007#32 := by decide

/-- R340, R341: GET_MEASUREMENTS as a host program. -/
theorem test_assemble_get :
    assemble [.command .getMeasurements 0] =
      some [.wr 0x6#4 0x00000007#32, .poll, .rd 0x7#4, .rd 0x8#4, .rd 0x9#4, .rd 0xA#4] := by decide

/-! ### CRC engine and frames (95 sections 2 and 3) -/

theorem test_crc_check_value :
    crc16 [0x31#8, 0x32#8, 0x33#8, 0x34#8, 0x35#8, 0x36#8, 0x37#8, 0x38#8, 0x39#8] = 0x4B37#16 := by decide +kernel
theorem test_crc_ok : crcOk [0x01#8, 0x02#8, 0x03#8, 0x61#8, 0x61#8] = true := by decide +kernel
theorem test_crc_bad : crcOk [0x01#8, 0x02#8, 0x03#8, 0x61#8, 0x60#8] = false := by decide +kernel
theorem test_frame_f1 : buildWrite demo 0x01#8 0x010E#16 1#32 = f1 := by decide +kernel
theorem test_frame_f7 :
    buildWrite demo 0x01#8 0x0112#16 150000#32 =
      [0x01#8, 0x06#8, 0x01#8, 0x12#8, 0x00#8, 0x01#8, 0x04#8, 0x00#8, 0x02#8, 0x49#8, 0xF0#8, 0x09#8, 0x47#8] := by
  decide +kernel
theorem test_frame_f9 :
    buildRead demo 0x01#8 = [0x01#8, 0x03#8, 0x03#8, 0x00#8, 0x00#8, 0x00#8, 0x45#8, 0x8E#8] := by decide +kernel

/-! ### Classifiers (95 sections 5 and 6) -/

/-- V-W1, V-W2 and V-W8. -/
theorem test_classify_write :
    classifyWrite f1 f1 false false false = .ok ∧ classifyWrite (f1.take 6) f1 false false false = .notConfirmed ∧
    classifyWrite (f1.take 6) f1 false false true = .ok ∧ classifyWrite [] f1 false false true = .noReply := by
  decide +kernel

/-- V-RD1, V-RD2 and V-RD6. -/
theorem test_classify_read :
    classifyRead demo rd1 0x01#8 true false false =
      some [0x03#8, 0x00#8, 0x00#8, 0x13#8, 0x88#8, 0x00#8, 0x03#8, 0xE8#8] ∧
    classifyRead demo (rd1.take 12 ++ [0x1E#8]) 0x01#8 true false false = none ∧
    (classifyRead demo (rd1.take 12 ++ [0x1E#8]) 0x01#8 false false false).isSome = true ∧
    classifyRead demo (rd1.take 10) 0x01#8 false false false = none := by decide +kernel

/-! ### One step -/

/-- SET_VOLTAGE 150000 mV is sent (S2): BUSY, PHASE TX, LASTOP 3. -/
theorem test_issue_set_voltage :
    nextHas (step (opened 150000#32 [.wr 0x6#4 0x03#32] [still true]))
      (fun t => decide (hostRead t 0x7#4 = 0x00031001#32 ∧ t.txlen = 13)) = true := by decide +kernel

/-- P3: 150001 mV is refused before any I/O. -/
theorem test_issue_out_of_range :
    nextHas (step (opened 150001#32 [.wr 0x6#4 0x03#32] [still true]))
      (fun t => decide (hostRead t 0x7#4 = 0x00030202#32 ∧ t.txlen = 0)) = true := by decide +kernel

/-- P3: an OP that selects no command, and a closed session. -/
theorem test_issue_invalid_cmd :
    nextHas (step (opened 0#32 [.wr 0x6#4 0x08#32] [still true])) (fun t => decide (hostRead t 0x7#4 = 0x00080502#32)) =
      true := by decide +kernel
theorem test_issue_closed :
    nextHas (step (closed [.wr 0x6#4 0x07#32] [still true]))
      (fun t => decide (hostRead t 0x7#4 = 0x00070602#32 ∧ hostRead t 0x8#4 = 0#32)) = true := by decide +kernel

/-- V-T8: a byte that arrives in the issue step is discarded. -/
theorem test_byte_in_issue_step :
    nextHas (step (opened 0#32 [.wr 0x6#4 0x07#32] [byteIn 0x55#8])) (fun t => decide (t.rxlen = 0 ∧ t.capture = true)) =
      true := by decide +kernel

/-- P4: a write to ARG while BUSY is ignored and sets OVR. -/
theorem test_busy_write :
    nextHas (step (getTx [.wr 0x5#4 3#32] [still false])) (fun t => decide (t.arg = 0#32 ∧ t.status.ovr = true)) = true := by
  decide +kernel

/-- A poll that finds the reply V-RD1 complete decodes it (S1: MEAS = 0x307). -/
theorem test_terminate_reads :
    nextHas (step { getWait 1#32 1#32 0#32 13 [.rd 0x8#4] [still true] with
        rxbuf := Memory.writeBytes [] 0 rd1, rxlen := 13, measV := 0#24 })
      (fun t => decide (t.out.hRdata = 0x00000307#32 ∧ t.measV = 5000#24 ∧ t.measI = 1000#24 ∧ t.status.result = .ok)) =
      true := by decide +kernel

/-- X2: reset in the middle of a frame. -/
theorem test_reset_mid_frame :
    nextHas (step (getTx [.idle] [{ still true with rst := true }]))
      (fun t => decide (hostRead t 0x7#4 = 0#32 ∧ hostRead t 0x0#4 = 2#32 ∧ txValid t = false)) = true := by decide +kernel

/-! ### The host adapter (95 section 8) -/

theorem test_adapter_boundary :
    methodOperand (.setVoltage (.float 0x4062C00000000000#64)) = .ok 150000#32 ∧
    methodOperand (.setVoltage (.float 0x4062C0083126E979#64)) = .error .invalidInput ∧
    methodOperand (.setMode (.int 4)) = .error .invalidInput := by decide +kernel

/-! ### Witnesses for the hypotheses of the obligations -/

theorem witness_CrcValidIffResidueZero :
    2 ≤ [0xFF#8, 0xFF#8].length ∧ crcOk [0xFF#8, 0xFF#8] = true ∧ crcOk [0xFF#8, 0x00#8] = false := by decide +kernel

theorem witness_SingleByteCorruptionIsDetected :
    crcOk f1 = true ∧ 0 < f1.length ∧ 0x00#8 ≠ f1[0]! ∧ 12 < f1.length ∧ 0x00#8 ≠ f1[12]! := by decide +kernel

theorem witness_CrcCheckComparesTrailingBytes : [0xFF#8].length < 2 ∧ ([] : List Byte).length < 2 := by decide

theorem witness_HostReadReturnsRegister :
    let s := opened 0#32 [.rd 0xF#4] [still true]
    (wiresNow s).rst = false ∧ s.hostProgram = [.rd 0xF#4] ∧ s.rxlen < 2 ^ 32 ∧ 12 ≤ (0xC#4).toNat ∧
    12 ≤ (0xF#4).toNat := by decide

theorem witness_HostWriteUpdatesRegister :
    (opened 0#32 [] []).status.busy = false ∧ decode 0x07#32 = .ok .getMeasurements ∧
    decode 0x08#32 = .error (.reservedOp 0x08#8) ∧ 7 ≤ (0x7#4).toNat ∧ 7 ≤ (0xF#4).toNat := by decide

/-- A reset step, a step without an access, a read, a write, and each kind of line. -/
theorem witness_HostAccessIsOneReadOrWrite :
    (wiresNow (closed [.idle] [{ still true with rst := true }])).rst = true ∧
    (hostPortNow (closed [.idle] [])).req = false ∧
    (let s := closed [.rd 0x7#4] [still true]
     (wiresNow s).rst = false ∧ (hostPortNow s).req = true ∧ (hostPortNow s).we = false) ∧
    (let s := closed [.wr 0x5#4 7#32] [still true]
     (wiresNow s).rst = false ∧ (hostPortNow s).req = true ∧ (hostPortNow s).we = true) ∧
    (closed [.poll] []).hostProgram = [.poll] := by decide

/-- An accepted ARG write in a step. -/
theorem test_arg_write :
    nextHas (step (closed [.wr 0x5#4 7#32] [still true])) (fun t => decide (t.arg = 7#32 ∧ t.status.ovr = false)) = true := by
  decide +kernel

/-- At indices 0x0, 0x6, 0x7 and 0xF. -/
theorem witness_BusyWriteIsRefusedWithOvr :
    ∀ idx ∈ [0x0#4, 0x6#4, 0x7#4, 0xF#4],
      let s := getTx [.wr idx 3#32] [still true]
      (wiresNow s).rst = false ∧ s.hostProgram = [.wr idx 3#32] ∧ (afterBlock s).status.busy = true ∧
      (idx.toNat ≤ 6 ∨ 7 ≤ idx.toNat) := by decide +kernel

/-- At 0 and at each upper bound; the rows are those of the statement. -/
theorem witness_SetCommandsStartTheirTransaction :
    ∀ hi ∈ ([1, 3, 150000, 30000, 80000, 2500] : List Nat),
      (opened (BitVec.ofNat 32 hi) [] []).status.busy = false ∧ (opened (BitVec.ofNat 32 hi) [] []).ctrl.en = true ∧
      0 ≤ (opened 0#32 [] []).arg.toInt ∧ (opened 0#32 [] []).arg.toInt ≤ (hi : Int) ∧
      0 ≤ (opened (BitVec.ofNat 32 hi) [] []).arg.toInt ∧ (opened (BitVec.ofNat 32 hi) [] []).arg.toInt ≤ (hi : Int) := by
  decide

/-- At -1 and one above each bound; and closed, at 0. -/
theorem witness_SetCommandsRefusedWithoutIo :
    ∀ hi ∈ ([1, 3, 150000, 30000, 80000, 2500] : List Int),
      (opened 0xFFFFFFFF#32 [] []).status.busy = false ∧ (opened 0xFFFFFFFF#32 [] []).arg.toInt < 0 ∧
      hi < (opened (BitVec.ofInt 32 (hi + 1)) [] []).arg.toInt ∧
      (closed [] []).status.busy = false ∧ 0 ≤ (closed [] []).arg.toInt ∧ (closed [] []).arg.toInt ≤ hi ∧
      (closed [] []).ctrl.en = false := by decide

theorem witness_GetMeasurementsStartsItsTransaction :
    (opened 0#32 [] []).status.busy = false ∧ (opened 0#32 [] []).ctrl.en = true := by decide

theorem witness_GetMeasurementsClosedClearsMeasurement :
    (closed [] []).status.busy = false ∧ (closed [] []).ctrl.en = false := by decide

theorem witness_ReservedOpsCompleteInvalidCmd :
    (closed [] []).status.busy = false ∧ (0#32).toNat % 256 = 0 ∧ 8 ≤ (0x108#32).toNat % 256 ∧ 8 ≤ (0xFF#32).toNat % 256 ∧
    (1#32).toNat % 256 = (0x101#32).toNat % 256 := by decide

theorem witness_StartTransactionLoadsFrame :
    (buildRead demo 0x01#8).length = 8 ∧ (buildWrite demo 0x01#8 0x010E#16 1#32).length = 13 := by decide +kernel

theorem witness_StepRunsDecodedCommand :
    let s := opened 1#32 [.wr 0x6#4 0x01#32] [still true]
    (wiresNow s).rst = false ∧ s.hostProgram = [.wr 0x6#4 0x01#32] ∧ (afterBlock s).status.busy = false ∧
    decode 0x01#32 = .ok .setPowerState ∧ s.phase = .idle ∧ s.capture = false := by decide +kernel

/-- A command may also be issued in the step in which a transaction terminates (R560). -/
theorem witness_StepRunsDecodedCommand_at_termination :
    let s := getWait 1#32 0#32 0#32 0 [.wr 0x6#4 0x01#32] [still true]
    (wiresNow s).rst = false ∧ s.hostProgram = [.wr 0x6#4 0x01#32] ∧ (afterBlock s).status.busy = false := by
  decide +kernel

theorem witness_FetchedCommandRunsNext : decodeTableWord 8 0x01 = some .setPowerState := by decide

/-- Discarded while CAPTURE = 0; kept in the last free place; lost when RXBUF is full. -/
theorem witness_ReceiveCapturesInOrder :
    (closed [] []).capture = false ∧ (getTx [] []).capture = true ∧
    ({ getTx [] [] with rxlen := 15 } : State).rxlen < demo.rxbufDepth ∧
    demo.rxbufDepth ≤ ({ getTx [] [] with rxlen := 16 } : State).rxlen := by decide +kernel

theorem witness_TransmitHandshake :
    (getTx [] []).phase = .tx ∧ (getTx [] []).txidx + 1 ≠ (getTx [] []).txlen ∧
    ({ getTx [] [] with txidx := 7 } : State).txidx + 1 = (getTx [] []).txlen := by decide +kernel

theorem witness_OutputsShowTheStateAtTheStart :
    (∃ t, step (getTx [.idle] [still true]) = .next t) ∧ (getTx [] []).phase = .tx ∧
    (∃ t, step (getWait 2#32 0#32 0#32 0 [.idle] [still true]) = .next t) ∧
    (getWait 2#32 0#32 0#32 0 [] []).phase ≠ .tx := ⟨⟨_, rfl⟩, rfl, ⟨_, rfl⟩, by decide⟩

/-- The four cases, at timer values 2, 1 and 0. -/
theorem witness_WaitCountsDownAndPolls :
    let quiet := fun s : State => decide (s.rxlen = s.mark ∧ s.lost = false)
    (getWait 2#32 0#32 0#32 0 [] []).phase = .wait ∧ 2 ≤ (getWait 2#32 0#32 0#32 0 [] []).timer.toNat ∧
    (getWait 1#32 0#32 0#32 0 [] []).timer.toNat ≤ 1 ∧ quiet (getWait 1#32 0#32 0#32 0 [] []) = true ∧
    quiet { getWait 0#32 2#32 2#32 0 [] [] with rxlen := 1 } = false ∧
    (getWait 0#32 2#32 2#32 0 [] []).maxgap ≠ 0#32 ∧
    (getWait 0#32 2#32 2#32 0 [] []).gaps = (getWait 0#32 2#32 2#32 0 [] []).maxgap ∧
    quiet { getWait 0#32 1#32 2#32 0 [] [] with lost := true } = false ∧
    (getWait 0#32 1#32 2#32 0 [] []).gaps ≠ (getWait 0#32 1#32 2#32 0 [] []).maxgap ∧
    (getWait 0#32 0#32 0#32 0 [] []).maxgap = 0#32 := by decide +kernel

/-- LASTOP at 1, 6 and 7; a reply that decodes and one that does not. -/
theorem witness_TerminateRecordsOutcome :
    let s := getWait 0#32 0#32 0#32 0 [] []
    let good : State := { s with rxbuf := Memory.writeBytes [] 0 rd1, rxlen := 13 }
    let set := fun op : Byte => { s with status := { s.status with lastop := op } }
    1 ≤ (set 0x01#8).status.lastop.toNat ∧ (set 0x06#8).status.lastop.toNat ≤ 6 ∧ s.status.lastop = 0x07#8 ∧
    (classifyRead good.params (rxReply good) good.devaddr good.ctrl.rxcrc good.status.expired good.status.rxovf).isSome =
      true ∧
    classifyRead s.params (rxReply s) s.devaddr s.ctrl.rxcrc s.status.expired s.status.rxovf = none := by decide +kernel

/-- The last handshake; a poll that goes on; a timer of 0, which polls in the first step, and one of 2, in the second. -/
theorem witness_PollComesAfterTheDelay :
    (let s : State := { getTx [] [still true] with txidx := 7 }
     s.status.busy = true ∧ s.phase = .tx ∧ s.txidx + 1 = s.txlen ∧ (wiresNow s).rst = false ∧
     (wiresNow s).txReady = true) ∧
    (let s := getWait 1#32 0#32 0#32 0 [] [byteIn 0x55#8]
     s.status.busy = true ∧ s.phase = .wait ∧ s.timer.toNat ≤ 1 ∧ (wiresNow s).rst = false ∧
     (afterBlock s).phase = .wait) ∧
    (getWait 0#32 0#32 0#32 0 [] []).status.busy = true ∧
    ([] : List Wires).length + 1 = max (getWait 0#32 0#32 0#32 0 [] []).timer.toNat 1 ∧
    [still true] <+: (getWait 2#32 0#32 0#32 0 [] [still true, still false]).wires ∧ (still true).rst = false ∧
    [still true].length + 1 = max (getWait 2#32 0#32 0#32 0 [] []).timer.toNat 1 := by decide +kernel

theorem witness_BoundedDrainEndsInTime :
    let s := getWait 3#32 0#32 1#32 0 [] []
    s.status.busy = true ∧ s.phase = .wait ∧ s.timer = s.settle ∧ s.gaps = 0#32 ∧ s.maxgap ≠ 0#32 := by decide +kernel

/-! The small states satisfy the invariant. -/

theorem inv_opened (a : Word) (ls : List HostLine) (ws : List Wires) : Inv (opened a ls ws) := by
  constructor <;> simp [opened, closed, State.resetWith, demo, Params.wf, Memory.wf]

theorem inv_closed (ls : List HostLine) (ws : List Wires) : Inv (closed ls ws) := by
  constructor <;> simp [closed, State.resetWith, demo, Params.wf, Memory.wf]

theorem inv_getTx (ls : List HostLine) (ws : List Wires) : Inv (getTx ls ws) where
  params := by show demo.wf = true; decide
  txbufWf := by show Memory.wf (getTx [] []).txbuf; decide +kernel
  rxbufWf := .nil
  txbufBound := by show ∀ c ∈ (getTx [] []).txbuf, c.1 < 16; decide +kernel
  rxbufBound := by show ∀ c ∈ ([] : Memory), c.1 < 16; simp
  txlen := .inr (.inl rfl)
  txidx := Nat.zero_le _
  rxlen := Nat.zero_le _
  mark := Nat.zero_le _
  txWritten := by show ∀ i < 8, (Memory.read (getTx [] []).txbuf i).isSome = true; decide +kernel
  rxWritten := fun i h => absurd h (Nat.not_lt_zero i)
  busyPhase := ⟨fun _ h => (by cases h), fun _ => rfl⟩
  captureBusy := rfl
  doneNotBusy := fun _ => rfl
  doneResult := fun h => by cases h
  sending := fun _ => ⟨by show 0 < 8; decide, rfl, rfl, rfl⟩
  waiting := fun h => by cases h
  gaps := fun _ h => absurd rfl h
  lostFull := fun _ h => by cases h
  busyOpen := fun _ => ⟨rfl, by show 1 ≤ 7; decide, by show 7 ≤ 7; decide⟩
  frame := fun _ => by
    show txFrame (getTx [] []) = requestFrame (getTx [] [])
    decide +kernel
  operand := fun _ q h => by cases h
  cleared := fun h => by cases h

theorem inv_getWait (ls : List HostLine) (ws : List Wires) : Inv (getWait 1#32 0#32 0#32 0 ls ws) where
  params := by show demo.wf = true; decide
  txbufWf := (inv_getTx ls ws).txbufWf
  rxbufWf := .nil
  txbufBound := (inv_getTx ls ws).txbufBound
  rxbufBound := (inv_getTx ls ws).rxbufBound
  txlen := .inr (.inl rfl)
  txidx := le_refl 8
  rxlen := Nat.zero_le _
  mark := Nat.zero_le _
  txWritten := (inv_getTx ls ws).txWritten
  rxWritten := fun i h => absurd h (Nat.not_lt_zero i)
  busyPhase := ⟨fun _ h => (by cases h), fun _ => rfl⟩
  captureBusy := rfl
  doneNotBusy := fun _ => rfl
  doneResult := fun h => by cases h
  sending := fun h => by cases h
  waiting := fun _ => ⟨rfl, .inl (by show 1#32 ≤ (getTx [] []).settle; decide +kernel)⟩
  gaps := fun _ h => absurd rfl h
  lostFull := fun _ h => by cases h
  busyOpen := (inv_getTx ls ws).busyOpen
  frame := (inv_getTx ls ws).frame
  operand := fun _ q h => by cases h
  cleared := fun h => by cases h

/-- A byte in every step; and, with a timer of 1 and a pause of 2, a byte in the first step and one in each
pause after it. -/
theorem witness_ChatteringLineKeepsBusy :
    (let s := getWait 1#32 0#32 0#32 0 [] [byteIn 0x55#8]
     Inv s ∧ s.status.busy = true ∧ s.maxgap = 0#32 ∧ [byteIn 0x55#8] <+: s.wires ∧
     ∀ w ∈ [byteIn 0x55#8], w.rst = false ∧ w.rxValid = true) ∧
    (let ws := [byteIn 0x55#8, still true, byteIn 0x56#8, byteIn 0x57#8, still false]
     let s := getWait 1#32 0#32 0#32 0 [] ws
     Inv s ∧ s.status.busy = true ∧ s.phase = .wait ∧ s.maxgap = 0#32 ∧ ws <+: s.wires ∧ (∀ w ∈ ws, w.rst = false) ∧
     max s.timer.toNat 1 = 1 ∧ max s.gap.toNat 1 = 2 ∧ (∃ w ∈ ws.take 1, w.rxValid = true) ∧
     ∀ k, 1 + (k + 1) * 2 ≤ ws.length → ∃ w ∈ (ws.drop (1 + k * 2)).take 2, w.rxValid = true) := by
  refine ⟨⟨inv_getWait _ _, by decide +kernel, by decide +kernel, List.prefix_refl _, by decide⟩, inv_getWait _ _,
    by decide +kernel, rfl, by decide +kernel, List.prefix_refl _, by decide, by decide +kernel, by decide +kernel, by decide,
    fun k h => ?_⟩
  have : k = 0 ∨ k = 1 := by simp at h; omega
  rcases this with rfl | rfl <;> decide

/-- A byte lost to a full RXBUF keeps the drain going (R581). -/
theorem test_lost_byte_keeps_the_drain :
    nextHas (step { getWait 1#32 0#32 0#32 16 [.idle] [byteIn 0x55#8] with rxlen := 16 })
      (fun t => decide (t.phase = .wait ∧ t.status.busy = true ∧ t.status.rxovf = true ∧ t.timer = t.gap)) = true := by
  decide +kernel

/-- No step, and all eight handshakes of a read frame. -/
theorem witness_FrameBytesLeaveInOrder :
    let ws := List.replicate 8 (still true)
    let s := getTx [] ws
    s.status.busy = true ∧ s.phase = .tx ∧ s.txidx = 0 ∧ ws <+: s.wires ∧ (∀ w ∈ ws, w.rst = false) ∧
    ([] : List Wires).countP (·.txReady) < s.txlen ∧
    (ws = List.replicate 7 (still true) ++ [still true] ∧ ws.countP (·.txReady) = s.txlen) :=
  ⟨rfl, rfl, rfl, List.prefix_refl _, by decide, by decide +kernel, by decide, by decide +kernel⟩

/-- SET_POWER_STATE on, SETTLE = 3, GAP = 2: the echo arrives in the 13 steps after the first. -/
theorem witness_EchoedSetCommandCompletesOk :
    let ws := still true :: (f1.map byteIn ++ List.replicate 4 (still true))
    let s := opened 1#32 (.wr 0x6#4 0x01#32 :: List.replicate 18 .idle) (still true :: ws)
    Inv s ∧ s.status.busy = false ∧ s.ctrl.en = true ∧ opQuantity (opField 0x01#32) = some .onOff ∧
    inRange .onOff (sint32 s.arg) = true ∧ 13 + max s.settle.toNat 1 + max s.gap.toNat 1 = 18 ∧ ws.length = 18 ∧
    (∀ w ∈ ws, w.rst = false ∧ w.txReady = true) ∧
    ((ws.take (13 + max s.settle.toNat 1)).filter (·.rxValid)).map (·.rxData) =
      buildWrite s.params s.devaddr (quantityAddr .onOff) s.arg ∧
    (∀ w ∈ ws.drop (13 + max s.settle.toNat 1), w.rxValid = false) :=
  ⟨inv_opened _ _ _, by decide +kernel, by decide +kernel, by decide +kernel, by decide +kernel, by decide +kernel,
    by decide +kernel, by decide +kernel, by decide +kernel, by decide +kernel⟩

theorem witness_ResetStepClearsTheBlock :
    let s := getTx [.idle] [{ still true with rst := true }]
    (wiresNow s).rst = true ∧ s.params.wf = true ∧ s.params.fClkNum ≤ 10 * s.params.fClkDen * (2 ^ 32 - 1) := by
  decide +kernel

theorem witness_StepKeepsInvariant :
    let s := getTx [.idle] [still true]
    Inv s ∧ ∃ t, step s = .next t := ⟨inv_getTx _ _, _, rfl⟩

theorem witness_SettingsFixedWhileBusy :
    let s := getTx [.wr 0x5#4 3#32] [still true]
    (∃ t, step s = .next t) ∧ (wiresNow s).rst = false ∧ (afterBlock s).status.busy = true :=
  ⟨⟨_, rfl⟩, by decide +kernel, by decide +kernel⟩

theorem witness_RequestFrameFixedUntilNextIssue :
    let s := opened 0#32 [.wr 0x6#4 0x07#32] [still true]
    ∃ t, step s = .next t ∧ (wiresNow s).rst = false ∧ t.txlen ≠ s.txlen := ⟨_, rfl, by decide, by decide +kernel⟩

/-- A GET_MEASUREMENTS that terminates without a reply, and one in a closed session. -/
theorem witness_MeasurementsChangeOnlyOnGet :
    (let s := getWait 1#32 0#32 0#32 0 [.idle] [still true]
     Inv s ∧ ∃ t, step s = .next t ∧ (wiresNow s).rst = false ∧ t.meas ≠ s.meas) ∧
    (let s : State :=
       { opened 0#32 [.wr 0x6#4 0x07#32] [still true] with ctrl := { en := false, rxcrc := true, echo := false } }
     Inv s ∧ ∃ t, step s = .next t ∧ (wiresNow s).rst = false ∧ t.meas ≠ s.meas) :=
  ⟨⟨inv_getWait _ _, _, rfl, by decide, by decide +kernel⟩,
    ⟨by constructor <;> simp [opened, closed, State.resetWith, demo, Params.wf, Memory.wf], _, rfl, by decide,
      by decide +kernel⟩⟩

/-- A result written by a termination, and one written at issue. -/
theorem witness_ResultIsWrittenWithDone :
    (let s := getWait 1#32 0#32 0#32 0 [.idle] [still true]
     Inv s ∧ (wiresNow s).rst = false ∧ (afterBlock s).status.result ≠ s.status.result) ∧
    (let s := opened 2#32 [.wr 0x6#4 0x01#32] [still true]
     Inv s ∧ ∃ t, step s = .next t ∧ (wiresNow s).rst = false ∧ t.status.result ≠ (afterBlock s).status.result) :=
  ⟨⟨inv_getWait _ _, by decide, by decide +kernel⟩, ⟨inv_opened _ _ _, _, rfl, by decide, by decide +kernel⟩⟩

/-- A transaction that goes on, and one that terminates. -/
theorem witness_TransactionEndsOnlyByTermination :
    (let s := getTx [.idle] [still false]
     Inv s ∧ s.status.busy = true ∧ (wiresNow s).rst = false ∧ (afterBlock s).status.busy = true) ∧
    (let s := getWait 1#32 0#32 0#32 0 [.idle] [still true]
     Inv s ∧ s.status.busy = true ∧ (wiresNow s).rst = false ∧ (afterBlock s).status.busy = false) :=
  ⟨⟨inv_getTx _ _, by decide +kernel, by decide, by decide +kernel⟩,
    ⟨inv_getWait _ _, by decide +kernel, by decide, by decide +kernel⟩⟩

theorem witness_OvrComesFromOverlappedRequest :
    let s := getTx [.wr 0x5#4 3#32] [still true]
    ∃ t, step s = .next t ∧ s.status.ovr = false ∧ t.status.ovr = true := ⟨_, rfl, by decide +kernel, by decide +kernel⟩

/-- Two states that differ in bytes never read: TXBUF above the frame, and RXBUF. -/
theorem witness_UnwrittenBytesNeverMatter :
    let s := getTx [.idle] [still true]
    let t : State := { s with txbuf := Memory.write s.txbuf 15 0xAA#8, rxbuf := [(3, 0x55#8)] }
    (s.phase = .tx → s.txidx < s.txlen) ∧ t = { s with txbuf := t.txbuf, rxbuf := t.rxbuf } ∧
    (∀ i < s.txlen, txByte t i = txByte s i) ∧ (∀ i < s.rxlen, rxByte t i = rxByte s i) ∧ (∃ s', step s = .next s') ∧
    t ≠ s :=
  ⟨by decide +kernel, rfl, by decide +kernel, by decide +kernel, ⟨_, rfl⟩, fun h => by
    have := congrArg State.rxbuf h
    cases this⟩

theorem witness_PollLineWaitsForCompletion :
    (let s := getTx [.poll, .idle] [still true]
     (∃ t, step s = .next t) ∧ s.hostProgram = [.poll, .idle] ∧ (wiresNow s).rst = false) ∧
    (let s := opened 0#32 [.rd 0x7#4] [still true]
     (∃ t, step s = .next t) ∧ s.hostProgram = [.rd 0x7#4] ∧ (wiresNow s).rst = false) :=
  ⟨⟨⟨_, rfl⟩, rfl, rfl⟩, ⟨⟨_, rfl⟩, rfl, rfl⟩⟩

theorem witness_AdapterOperandIsInRange :
    methodOperand (.setMode (.int 3)) = .ok 3#32 ∧ opQuantity (opcode (methodCommand (.setMode (.int 3)))) = some .mode := by
  decide +kernel

/-- Both bounds of the voltage, and one past each. -/
theorem witness_AdapterAcceptsExactlyTheRange :
    methodOperand (.setVoltage (.int 0)) = .ok 0#32 ∧ methodOperand (.setVoltage (.int 150)) = .ok 150000#32 ∧
    methodOperand (.setVoltage (.int 151)) = .error .invalidInput ∧
    methodOperand (.setVoltage (.int (-1))) = .error .invalidInput := by decide +kernel

theorem witness_AdapterInputErrorLeavesBlockUntouched : methodOperand (.setMode (.int 4)) = .error .invalidInput := by
  decide +kernel

/-- A method called while the block is BUSY, when its first line is due, and an opening and a closing of a session, each at its start. -/
theorem witness_AdapterNeverWritesWhileBusy :
    (let s := getWait 1#32 0#32 0#32 0 [] [still true]
     let ls : List HostLine := [.wr 0x5#4 3#32, .wr 0x6#4 0x02#32, .poll, .rd 0x7#4]
     methodLines (.setMode (.int 3)) = .ok ls ∧ waitLines s = [.poll] ∧
     ∃ t, Sys2Proof.core.run 1 (adapterCall ls s) = .next t ∧ t.hostProgram = ls) ∧
    (let s := closed [] []
     let ls := openSession 0x01#8 none none none true false
     Sys2Proof.core.run 0 (adapterCall ls s) = .next (adapterCall ls s) ∧ (adapterCall ls s).hostProgram ≠ [] ∧
     (adapterCall ls s).hostProgram.length ≤ ls.length) ∧
    (let s := closed [] []
     let ls := closeSession true false
     Sys2Proof.core.run 0 (adapterCall ls s) = .next (adapterCall ls s) ∧ (adapterCall ls s).hostProgram ≠ [] ∧
     (adapterCall ls s).hostProgram.length ≤ ls.length) :=
  ⟨⟨by decide +kernel, by decide, _, rfl, by decide +kernel⟩, ⟨rfl, by decide, by decide⟩, ⟨rfl, by decide, by decide⟩⟩

/-- A method on a closed block, and one on a block about to end a transaction, with a read of the host's own pending. -/
theorem witness_MethodRunsOnAFreeBlock :
    (callMethod 4 (.setMode (.int 3)) (closed [] (List.replicate 4 (still true)))).isSome = true ∧
    ((callMethod 6 (.setMode (.int 5)) (closed [] [])).map (·.1) = some (.error .invalidInput)) ∧
    (let s := getWait 1#32 0#32 0#32 0 [.rd 0x3#4] (List.replicate 6 (still true))
     (callMethod 6 (.setMode (.int 3)) { s with ctrl := { s.ctrl with en := false } }).map (·.1) =
       some (.error .sessionClosed)) := by decide +kernel

/-- Nothing tuned, and everything tuned. -/
theorem witness_OpenSessionConfiguresTheBlock :
    (let ls := openSession 0x01#8 none none none true false
     let ws := List.replicate 2 (still true)
     let s := closed ls ws
     s.phase = .idle ∧ s.status.busy = false ∧ s.hostProgram = ls ++ [] ∧ ws <+: s.wires ∧ ws.length = ls.length ∧
     (∀ w ∈ ws, w.rst = false)) ∧
    (let ls := openSession 0x01#8 (some 4#32) (some 3#32) (some 2#32) true true
     let ws := List.replicate 5 (still true)
     let s := closed ls ws
     s.phase = .idle ∧ s.status.busy = false ∧ s.hostProgram = ls ++ [] ∧ ws <+: s.wires ∧ ws.length = ls.length ∧
     (∀ w ∈ ws, w.rst = false)) :=
  ⟨⟨rfl, rfl, by decide, List.prefix_refl _, by decide, by decide⟩,
    ⟨rfl, rfl, by decide, List.prefix_refl _, by decide, by decide⟩⟩

/-- Teardown of a BUSY block, and of a free one. -/
theorem witness_CloseSessionWaitsThenCloses :
    (let s := getTx (closeSession true false ++ [.idle]) [still true]
     s.hostProgram = closeSession true false ++ [.idle] ∧ (wiresNow s).rst = false ∧
     (afterBlock s).status.busy = true) ∧
    (let s := opened 0#32 (closeSession true false) [still true, still true]
     s.hostProgram = closeSession true false ++ [] ∧ (wiresNow s).rst = false ∧ (afterBlock s).status.busy = false ∧
     ∃ u, step s = .next u ∧ (wiresNow u).rst = false) :=
  ⟨⟨rfl, by decide, by decide +kernel⟩, ⟨rfl, by decide, by decide +kernel, _, rfl, by decide⟩⟩

/-- Status words for INVALID_INPUT, CLOSED, NOT_CONFIRMED, NO_REPLY and OK. -/
theorem witness_AdapterSurfacesResults :
    resultField 0x00030202#32 = resultCode .invalidInput ∧ resultField 0x00030602#32 = resultCode .closed ∧
    resultField 0x00030402#32 = resultCode .notConfirmed ∧ resultField 0x00070302#32 = resultCode .noReply ∧
    resultField 0x00070102#32 = resultCode .ok := by decide

theorem witness_MeasurementQuotientIsNearest : 0 < 1 ∧ 1 < 2 ^ 24 ∧ 0 < 16777215 ∧ 16777215 < 2 ^ 24 := by decide

end Sys2Proof.Tests
end

/-! SUPPORT. The host port in a step (20_memory.md R200 to R205, R225): which index is which register, what an access does
while the block is BUSY and while it is free, the words a read returns, and the obligations these settle. -/

namespace Sys2Proof.Machine

/-! ### The register indices -/

@[simp] theorem hostRegAt_hostIdx (r : HostReg) : hostRegAt (hostIdx r) = some r := by cases r <;> rfl

theorem hostRegAt_eq_some_iff (idx : BitVec 4) (r : HostReg) : hostRegAt idx = some r ↔ idx = hostIdx r := by
  cases r <;> revert idx <;> decide

/-- The indices 0xC to 0xF are reserved (R124). -/
theorem hostRegAt_eq_none_iff : ∀ idx : BitVec 4, hostRegAt idx = none ↔ 12 ≤ idx.toNat := by decide

/-- The registers that the BUSY rule guards stand at the indices 0x0 to 0x6 (R204). -/
theorem guardedReg_eq_decide (r : HostReg) : guardedReg r = decide ((hostIdx r).toNat ≤ 6) := by cases r <;> rfl

/-! ### Host writes -/

/-- A read-only register takes a write without effect (R203). -/
theorem acceptWrite_unguarded {r : HostReg} (hg : guardedReg r = false) (v : Word) (s : State) :
    acceptWrite r v s = .next s := by
  cases r with
  | status | meas | measV | measI | rxlen => rfl
  | ctrl | devaddr | settle | gap | maxgap | arg | cmd => cases hg

theorem hostWrite_free {s : State} (r : HostReg) (hb : s.status.busy = false) (v : Word) :
    hostWrite (hostIdx r) v s = acceptWrite r v s := by
  simp [hostWrite, hb]

theorem hostWrite_busy {s : State} {idx : BitVec 4} (hi : idx.toNat ≤ 6) (hb : s.status.busy = true) (v : Word) :
    hostWrite idx v s = .next (refuseWrite s) := by
  cases hr : hostRegAt idx with
  | none => have := (hostRegAt_eq_none_iff idx).1 hr; omega
  | some r =>
    obtain rfl := (hostRegAt_eq_some_iff idx r).1 hr
    simp [hostWrite, guardedReg_eq_decide, hi, hb]

theorem hostWrite_high_index {idx : BitVec 4} (hi : 7 ≤ idx.toNat) (v : Word) (s : State) :
    hostWrite idx v s = .next s := by
  cases hr : hostRegAt idx with
  | none => simp [hostWrite, hr]
  | some r =>
    obtain rfl := (hostRegAt_eq_some_iff idx r).1 hr
    have hg : guardedReg r = false := by rw [guardedReg_eq_decide]; exact decide_eq_false (by omega)
    simp [hostWrite, hg, acceptWrite_unguarded hg]

theorem issue_ok {v : Word} {i : Instr} (h : decode v = .ok i) (s : State) : issue v s = exec i s := by
  simp [issue, h]

theorem issue_error {v : Word} {op : Byte} (h : decode v = .error (.reservedOp op)) (s : State) :
    issue v s = .next (issueIllegal op s) := by
  simp [issue, h]

/-- Settles O16, from what an accepted write does to each register and the two outcomes of an issue. -/
theorem hostWriteUpdatesRegister : Obligations.HostWriteUpdatesRegister := by
  unfold Obligations.HostWriteUpdatesRegister
  intro s v
  refine ⟨fun hb => ?accepted, fun idx hi => hostWrite_high_index hi v s⟩
  exact ⟨hostWrite_free .ctrl hb v, hostWrite_free .devaddr hb v, hostWrite_free .settle hb v,
    hostWrite_free .gap hb v, hostWrite_free .maxgap hb v, hostWrite_free .arg hb v,
    fun i hd => (hostWrite_free .cmd hb v).trans (issue_ok hd s),
    fun op hd => (hostWrite_free .cmd hb v).trans (issue_error hd s)⟩

/-! ### The step of a host line -/

theorem afterBlock_hostProgram {s : State} (hr : (wiresNow s).rst = false) :
    (afterBlock s).hostProgram = s.hostProgram := by
  simp [afterBlock_no_reset s hr]

/-- Every line but POLL is done with its step (R340; log 12). -/
theorem retireLine_of_ne_poll {s : State} {l : HostLine} {ls : List HostLine} (hp : s.hostProgram = l :: ls)
    (hl : l ≠ .poll) : retireLine s = { s with hostProgram := ls } := by
  cases l with
  | poll => exact absurd rfl hl
  | wr | rd | idle => simp [retireLine, hp]

/-- The step of a pending line other than POLL is the line's access on the state that the block's phases leave. -/
theorem step_of_line {s : State} {l : HostLine} {ls : List HostLine} (hr : (wiresNow s).rst = false)
    (hp : s.hostProgram = l :: ls) (hl : l ≠ .poll) :
    step s = hostAccess (hostLinePort l) { afterBlock s with hostProgram := ls } := by
  have hport : hostPortNow s = hostLinePort l := by simp [hostPortNow, hp]
  have hbefore : beforeHost s = { afterBlock s with hostProgram := ls } :=
    retireLine_of_ne_poll ((afterBlock_hostProgram hr).trans hp) hl
  simp [step, cycle, hr, hport, hbefore]

/-- A step without reset is one host access on the state that the block's phases leave, whatever lines remain. -/
theorem hostAccess_of_step {s t : State} (h : step s = .next t) (hr : (wiresNow s).rst = false) :
    ∃ ls, hostAccess (hostPortNow s) { afterBlock s with hostProgram := ls } = .next t := by
  rcases step_cases s t h with ⟨hreset, _⟩ | ⟨_, ha⟩
  · simp [hr] at hreset
  · rw [← afterBlock_no_reset s hr, retireLine_frame] at ha
    exact ⟨_, ha⟩

/-! ### While BUSY -/

/-- While BUSY a host access drives `h_rdata` and may set OVR, and does nothing else (R204). -/
theorem hostAccess_busy {p : HostPort} {s t : State} (h : hostAccess p s = .next t) (hb : s.status.busy = true) :
    ∃ v, t = setReadData v s ∨ t = refuseWrite (setReadData v s) := by
  rcases hostAccess_cases p s t h with ⟨_, ht⟩ | ⟨_, _, ht⟩ | ⟨_, _, u, rfl, hw⟩
  · exact ⟨_, .inl ht⟩
  · exact ⟨_, .inl ht⟩
  · rcases hw with ⟨_, _, _, _, ht⟩ | ⟨_, ht⟩ | ⟨hfree, _⟩ | ⟨_, hfree, _⟩ | ⟨_, hfree, _⟩
    · exact ⟨_, .inr ht⟩
    · exact ⟨_, .inl ht⟩
    all_goals simp [hb] at hfree

/-- Settles O17, by the index of the write: guarded (0x0 to 0x6) or not. -/
theorem busyWriteIsRefusedWithOvr : Obligations.BusyWriteIsRefusedWithOvr := by
  unfold Obligations.BusyWriteIsRefusedWithOvr
  intro s idx v ls hr hp hb
  have hstep : step s = hostWrite idx v (setReadData _ { afterBlock s with hostProgram := ls }) :=
    step_of_line hr hp nofun
  rw [hstep]
  by_cases hi : idx.toNat ≤ 6
  · exact ⟨_, hostWrite_busy hi (by exact hb) v, fun _ => rfl, fun h => by omega⟩
  · exact ⟨_, hostWrite_high_index (by omega) v _, fun h => absurd h hi, fun _ => rfl⟩

/-- Settles O42: neither the block's phases nor an access while BUSY touches a setting. -/
theorem settingsFixedWhileBusy : Obligations.SettingsFixedWhileBusy := by
  unfold Obligations.SettingsFixedWhileBusy
  intro s t h hr hb
  obtain ⟨ls, ha⟩ := hostAccess_of_step h hr
  obtain ⟨v, rfl | rfl⟩ := hostAccess_busy ha hb
  · simp [afterBlock_no_reset s hr]
  · simp [afterBlock_no_reset s hr]

/-! ### The request frame -/

/-- A command's issue step keeps the request frame or starts a transaction. -/
theorem exec_keeps_txbuf_or_starts {i : Instr} {s t : State} (h : exec i s = .next t) :
    (t.txbuf = s.txbuf ∧ t.txlen = s.txlen) ∨ ∃ f u, t = startTransaction f u := by
  rcases exec_cases i s t h with ⟨_, _, _, rfl⟩ | ⟨_, _, rfl⟩ | ⟨_, _, _, _, ht⟩ | ⟨_, _, ht⟩
  · exact .inl ⟨rfl, rfl⟩
  · exact .inl ⟨rfl, rfl⟩
  · exact .inr ⟨_, _, ht⟩
  · exact .inr ⟨_, _, ht⟩

/-- A host access keeps the request frame, or is an accepted CMD write whose command starts a transaction. -/
theorem hostAccess_keeps_txbuf_or_starts {p : HostPort} {s t : State} (h : hostAccess p s = .next t) :
    (t.txbuf = s.txbuf ∧ t.txlen = s.txlen) ∨
    (p.req = true ∧ p.we = true ∧ p.idx = hostIdx .cmd ∧ (∃ i, decode p.wdata = .ok i) ∧ s.status.busy = false ∧
      ∃ f u, t = startTransaction f u) := by
  rcases hostAccess_cases p s t h with ⟨_, rfl⟩ | ⟨_, _, rfl⟩ | ⟨hreq, hwe, u, rfl, hw⟩
  · exact .inl ⟨rfl, rfl⟩
  · exact .inl ⟨rfl, rfl⟩
  · rcases hw with ⟨_, _, _, _, rfl⟩ | ⟨_, rfl⟩ | ⟨_, ht⟩ | ⟨hidx, hfree, i, hd, he⟩ | ⟨_, _, _, _, rfl⟩
    · exact .inl ⟨rfl, rfl⟩
    · exact .inl ⟨rfl, rfl⟩
    · rw [ht]; exact .inl ⟨rfl, rfl⟩
    · refine (exec_keeps_txbuf_or_starts he).imp_right fun hstart => ?_
      exact ⟨hreq, hwe, (hostRegAt_eq_some_iff _ _).1 hidx, ⟨i, hd⟩, hfree, hstart⟩
    · exact .inl ⟨rfl, rfl⟩

/-- Settles O43: the block's phases keep the request frame, so the host's access changed it, by starting a transaction. -/
theorem requestFrameFixedUntilNextIssue : Obligations.RequestFrameFixedUntilNextIssue := by
  unfold Obligations.RequestFrameFixedUntilNextIssue
  intro s t h hr hchanged
  obtain ⟨ls, ha⟩ := hostAccess_of_step h hr
  rcases hostAccess_keeps_txbuf_or_starts ha with ⟨hbuf, hlen⟩ | ⟨hreq, hwe, hidx, hd, hfree, f, u, rfl⟩
  · simp [hbuf, hlen, afterBlock_no_reset s hr] at hchanged
  · exact ⟨hreq, hwe, hidx, hd, hfree, rfl, rfl, rfl⟩

/-! ### Register words

A register word is an OR of fields at disjoint places. Read from the lowest field up, each OR is a sum, because what lies
below a field fits under its lowest bit. -/

/-- A field of `k` bits at bit `n` of a register word. -/
theorem toNat_field {k n : Nat} (x : BitVec k) (h : k + n ≤ 32) : (x.setWidth 32 <<< n).toNat = x.toNat <<< n := by
  rw [BitVec.toNat_shiftLeft, BitVec.toNat_setWidth_of_le (by omega), Nat.mod_eq_of_lt]
  exact (Nat.shiftLeft_lt x.isLt).trans_le (Nat.pow_le_pow_right (by decide) h)

theorem toNat_bitAt {n : Nat} (b : Bool) (h : 1 + n ≤ 32) : (bitAt n b).toNat = b.toNat <<< n := by
  rw [bitAt, toNat_field _ h, BitVec.toNat_ofBool]

theorem toNat_ctrlWord (c : Ctrl) : (ctrlWord c).toNat = c.en.toNat + 2 * c.rxcrc.toNat + 4 * c.echo.toNat := by
  have hen := c.en.toNat_lt
  have hrxcrc := c.rxcrc.toNat_lt
  simp (disch := omega) only [ctrlWord, BitVec.or_assoc, BitVec.toNat_or, toNat_bitAt, ← Nat.shiftLeft_add_eq_or_of_lt]
  omega

theorem toNat_statusWord (st : Status) (ph : Phase) :
    (statusWord st ph).toNat =
      st.busy.toNat + 2 * st.done.toNat + 4 * st.ovr.toNat + 8 * st.rxovf.toNat + 16 * st.expired.toNat +
        256 * (resultCode st.result).toNat + 4096 * (phaseCode ph).toNat + 65536 * st.lastop.toNat := by
  have hbusy := st.busy.toNat_lt
  have hdone := st.done.toNat_lt
  have hovr := st.ovr.toNat_lt
  have hrxovf := st.rxovf.toNat_lt
  have hexpired := st.expired.toNat_lt
  have hresult := (resultCode st.result).isLt
  have hphase := (phaseCode ph).isLt
  simp (disch := omega) only [statusWord, BitVec.or_assoc, BitVec.toNat_or, toNat_field, toNat_bitAt,
    ← Nat.shiftLeft_add_eq_or_of_lt]
  omega

theorem toNat_measWord (m : Meas) :
    (measWord m).toNat = m.valid.toNat + 2 * m.on.toNat + 4 * (modeCode m.mode).toNat + 256 * m.rawstat.toNat := by
  have hvalid := m.valid.toNat_lt
  have hon := m.on.toNat_lt
  have hmode := (modeCode m.mode).isLt
  simp (disch := omega) only [measWord, BitVec.or_assoc, BitVec.toNat_or, toNat_field, toNat_bitAt,
    ← Nat.shiftLeft_add_eq_or_of_lt]
  omega

theorem hostRead_reserved {idx : BitVec 4} (h : 12 ≤ idx.toNat) (s : State) : hostRead s idx = 0#32 := by
  simp [hostRead, (hostRegAt_eq_none_iff idx).2 h]

/-- Settles O14: a read line's step is its access, and each register word is the sum of its fields. -/
theorem hostReadReturnsRegisterAndChangesNothing : Obligations.HostReadReturnsRegisterAndChangesNothing := by
  unfold Obligations.HostReadReturnsRegisterAndChangesNothing
  refine fun s idx => ⟨fun ls hr hp => step_of_line hr hp nofun, toNat_ctrlWord s.ctrl, ?devaddr, rfl, rfl, rfl, rfl, rfl,
    toNat_statusWord s.status s.phase, toNat_measWord s.meas, ?measV, ?measI, ?rxlen,
    fun h => hostRead_reserved h s⟩
  case devaddr | measV | measI => exact BitVec.toNat_setWidth_of_le (by decide)
  case rxlen => exact fun h => (BitVec.toNat_ofNat _ _).trans (Nat.mod_eq_of_lt h)

end Sys2Proof.Machine

/-! SUPPORT. The encodings (30_encoding.md): the OP field of a CMD write, the reserved OPs (R300, R311), and the layout of the
write-register frame (R320), with the obligations these settle. -/

namespace Sys2Proof.Machine

/-! ### Reserved OPs -/

theorem toNat_opField (w : Word) : (opField w).toNat = w.toNat % 256 := BitVec.extractLsb'_toNat 0 8 w

theorem opField_eq_ofNat (w : Word) : opField w = BitVec.ofNat 8 (w.toNat % 256) := by
  rw [← toNat_opField, BitVec.ofNat_toNat, BitVec.setWidth_eq]

/-- Only the low byte of a CMD write selects its command (R300). -/
theorem decode_eq_of_low_byte {v w : Word} (h : v.toNat % 256 = w.toNat % 256) : decode v = decode w := by
  rw [decode, decode, opField_eq_ofNat v, opField_eq_ofNat w, h]

theorem decodeOp_reserved {op : Byte} (h : op.toNat = 0 ∨ 8 ≤ op.toNat) : decodeOp op = .error (.reservedOp op) := by
  unfold decodeOp
  split
  case h_8 => rfl
  all_goals omega

theorem decode_reserved {v : Word} (h : v.toNat % 256 = 0 ∨ 8 ≤ v.toNat % 256) :
    decode v = .error (.reservedOp (opField v)) :=
  decodeOp_reserved (by rwa [toNat_opField])

/-- Settles O23: the accepted CMD write is an issue of a reserved OP, which completes at once. -/
theorem reservedOpsCompleteInvalidCmd : Obligations.ReservedOpsCompleteInvalidCmd := by
  unfold Obligations.ReservedOpsCompleteInvalidCmd
  refine ⟨fun s v hb hop => ?_, fun v w h => decode_eq_of_low_byte h⟩
  have hissue : hostWrite 0x6#4 v s = .next (issueIllegal (opField v) s) :=
    (hostWrite_free .cmd hb v).trans (issue_error (decode_reserved hop) s)
  rw [hissue, opField_eq_ofNat]
  rfl

/-! ### The write-register frame -/

@[simp] theorem be16_length (v : Half) : (be16 v).length = 2 := rfl

@[simp] theorem be32_length (v : Word) : (be32 v).length = 4 := rfl

@[simp] theorem buildWrite_length (p : Params) (dev : Byte) (ra : Half) (v : Word) :
    (buildWrite p dev ra v).length = 13 := by
  simp [buildWrite]

/-- Settles O7: the bytes are those the serialisers give, and the length is the sum of the parts' lengths. -/
theorem writeFrameLayout : Obligations.WriteFrameLayout := by
  unfold Obligations.WriteFrameLayout
  exact fun p dev ra v => ⟨rfl, buildWrite_length p dev ra v⟩

end Sys2Proof.Machine

/-! SUPPORT. The CRC engine (40_crc.md R401 to R408): a shift step as a halving, the CRC check on the last two bytes, the
residue of a valid sequence, and the CRC of two sequences that differ in one byte, with the obligations these settle. -/

namespace Sys2Proof.Machine

/-! ### Shift steps -/

theorem crcBits_eq_iterate (n : Nat) (c : Half) : crcBits n c = crcBit^[n] c := by
  induction n generalizing c with
  | zero => rfl
  | succ n ih => exact ih (crcBit c)

theorem ushiftRight_one_eq_half (c : Half) : c >>> 1 = BitVec.ofNat 16 (c.toNat / 2) := by
  bv_omega

/-- Settles O3, from the shift as a halving and the eight steps as an iterate; the examples evaluate. -/
theorem crcByteIsEightShiftSteps : Obligations.CrcByteIsEightShiftSteps := by
  unfold Obligations.CrcByteIsEightShiftSteps
  refine ⟨fun c => ?bit, fun c b => crcBits_eq_iterate 8 _, by decide, by decide, by decide, by decide⟩
  rw [crcBit, ushiftRight_one_eq_half]

/-- As long as the bits shifted out are 0, shift steps only shift. -/
theorem crcBits_of_low_zero {n : Nat} {c : Half} (h : ∀ i < n, c.getLsbD i = false) : crcBits n c = c >>> n := by
  induction n generalizing c with
  | zero => rfl
  | succ n ih =>
    have hbit : crcBit c = c >>> 1 := by simp only [crcBit, h 0 n.succ_pos, Bool.false_eq_true, if_false]
    have hlow : ∀ i < n, (c >>> 1).getLsbD i = false := fun i hi => by
      rw [BitVec.getLsbD_ushiftRight]; exact h (1 + i) (by omega)
    rw [crcBits, hbit, ih hlow, ← BitVec.shiftRight_add, Nat.add_comm]

/-- A byte in the high half moves to the low half in eight shift steps. -/
theorem crcBits_high_byte (b : Byte) : crcBits 8 (b.setWidth 16 <<< 8) = b.setWidth 16 := by
  rw [crcBits_of_low_zero fun i hi => by simp [hi]]
  bv_omega

/-! ### The CRC check -/

theorem toNat_le16val (lo hi : Byte) : (le16val lo hi).toNat = lo.toNat + 256 * hi.toNat := by
  have hlo : (lo.setWidth 16).toNat = lo.toNat := BitVec.toNat_setWidth_of_le (by decide)
  have hhi : (hi.setWidth 16 <<< 8).toNat = hi.toNat <<< 8 := by bv_omega
  rw [le16val, BitVec.or_comm, BitVec.toNat_or, hlo, hhi, ← Nat.shiftLeft_add_eq_or_of_lt lo.isLt]
  omega

/-- CRC_CHECK on a sequence whose last two bytes are in sight (R406). -/
theorem crcOk_append_pair (body : List Byte) (lo hi : Byte) :
    crcOk (body ++ [lo, hi]) = true ↔ crc16 body = le16val lo hi := by
  simp [crcOk]

theorem two_le_length_of_crcOk {f : List Byte} (h : crcOk f = true) : 2 ≤ f.length := by
  simp only [crcOk, Bool.and_eq_true, decide_eq_true_eq] at h
  exact h.1

/-- Settles O6, from the check on a sequence with its last two bytes in sight, their value as a number, and the length
that a valid sequence has. -/
theorem crcCheckComparesTrailingBytes : Obligations.CrcCheckComparesTrailingBytes := by
  unfold Obligations.CrcCheckComparesTrailingBytes
  refine ⟨fun body lo hi => ?trailing, fun f hlen => ?short⟩
  case trailing => rw [crcOk_append_pair, ← toNat_le16val, BitVec.toNat_inj]
  case short => exact Bool.eq_false_iff.2 fun hok => absurd (two_le_length_of_crcOk hok) (by omega)

/-! ### The residue -/

/-- The CRC before a sequence decides the CRC after it without loss. -/
theorem foldl_crcByte_injective (t : List Byte) : Function.Injective fun c => t.foldl crcByte c := by
  induction t with
  | nil => exact Function.injective_id
  | cons b t ih => exact ih.comp (crcByte_injective_left b)

/-- The residue: from a CRC equal to the two bytes that follow, these two bytes lead to 0. The low byte cancels the low
half, and the high byte, moved down, cancels itself. -/
theorem foldl_crcByte_le16val (lo hi : Byte) : [lo, hi].foldl crcByte (le16val lo hi) = 0#16 := by
  have hlow : le16val lo hi ^^^ lo.setWidth 16 = hi.setWidth 16 <<< 8 := by
    refine BitVec.eq_of_getLsbD_eq fun i _ => ?_
    by_cases h : i < 8
    · simp [le16val, h]
    · simp [le16val, h, BitVec.getLsbD_of_ge lo i (by omega)]
  calc [lo, hi].foldl crcByte (le16val lo hi)
      = crcBits 8 (crcBits 8 (le16val lo hi ^^^ lo.setWidth 16) ^^^ hi.setWidth 16) := rfl
    _ = crcBits 8 0#16 := by rw [hlow, crcBits_high_byte, BitVec.xor_self]
    _ = 0#16 := rfl

theorem exists_append_pair {f : List Byte} (h : 2 ≤ f.length) : ∃ body lo hi, f = body ++ [lo, hi] := by
  obtain ⟨lo, hi, hlast⟩ : ∃ lo hi, f.drop (f.length - 2) = [lo, hi] :=
    List.length_eq_two.1 (by rw [List.length_drop]; omega)
  exact ⟨_, lo, hi, by rw [← hlast, List.take_append_drop]⟩

/-- Settles O4: the CRC after the last two bytes is the residue 0 exactly when the CRC before them is their value. -/
theorem crcValidIffResidueZero : Obligations.CrcValidIffResidueZero := by
  unfold Obligations.CrcValidIffResidueZero
  intro f hlen
  obtain ⟨body, lo, hi, rfl⟩ := exists_append_pair hlen
  calc crcOk (body ++ [lo, hi]) = true
      ↔ crc16 body = le16val lo hi := crcOk_append_pair body lo hi
    _ ↔ [lo, hi].foldl crcByte (crc16 body) = [lo, hi].foldl crcByte (le16val lo hi) :=
        (foldl_crcByte_injective [lo, hi]).eq_iff.symm
    _ ↔ crc16 (body ++ [lo, hi]) = 0#16 := by rw [foldl_crcByte_le16val, crc16_append]

/-! ### A changed byte -/

/-- For one CRC before, the byte decides the CRC after without loss. -/
theorem crcByte_injective_right (c : Half) : Function.Injective (crcByte c) := by
  intro a b h
  have hwide : a.setWidth 16 = b.setWidth 16 := (BitVec.xor_right_inj _).1 (crcBits_injective 8 h)
  simpa using congrArg (BitVec.setWidth 8) hwide

theorem crc16_replace_injective (s t : List Byte) : Function.Injective fun b => crc16 (s ++ b :: t) := by
  simp only [crc16_append, List.foldl_cons]
  exact (foldl_crcByte_injective t).comp (crcByte_injective_right (crc16 s))

/-- Settles O5: both sequences would have the residue 0, and the CRC loses nothing of the byte at index `i`. -/
theorem singleByteCorruptionIsDetected : Obligations.SingleByteCorruptionIsDetected := by
  unfold Obligations.SingleByteCorruptionIsDetected
  intro f i b hi hok hne
  refine Bool.eq_false_iff.2 fun hok' => hne ?_
  have hres := (crcValidIffResidueZero f (two_le_length_of_crcOk hok)).1 hok
  have hres' := (crcValidIffResidueZero _ (two_le_length_of_crcOk hok')).1 hok'
  rw [List.set_eq_take_append_cons_drop, if_pos hi] at hres'
  rw [← List.take_append_drop i f, List.drop_eq_getElem_cons hi] at hres
  exact crc16_replace_injective (f.take i) (f.drop (i + 1)) (hres'.trans hres.symm)

end Sys2Proof.Machine

/-! SUPPORT. The frame codec (41_frame_codec.md R430 to R450): the numbers that big-endian bytes stand for, the layout
and the CRC of the frames the block builds, and what the two classifiers accept, with the obligations these settle. -/

namespace Sys2Proof.Machine

/-! ### Builders -/

/-- The bytes of `be16`, read high byte first (R12). -/
theorem toNat_be16_bytes (v : Half) : (v.extractLsb' 8 8).toNat * 256 + (v.extractLsb' 0 8).toNat = v.toNat := by
  simp only [BitVec.extractLsb'_toNat, Nat.shiftRight_eq_div_pow]
  omega

/-- The bytes of `be32`, read high byte first (R12). -/
theorem toNat_be32_bytes (v : Word) :
    (v.extractLsb' 24 8).toNat * 16777216 + (v.extractLsb' 16 8).toNat * 65536 + (v.extractLsb' 8 8).toNat * 256 +
      (v.extractLsb' 0 8).toNat = v.toNat := by
  simp only [BitVec.extractLsb'_toNat, Nat.shiftRight_eq_div_pow]
  omega

/-- A sequence with its CRC appended is CRC-valid (R405, R406). -/
@[simp] theorem crcOk_withCrc (bs : List Byte) : crcOk (withCrc bs) = true :=
  (crcOk_append_pair bs _ _).2 (le16val_le16 (crc16 bs)).symm

@[simp] theorem crcOk_buildWrite (p : Params) (dev : Byte) (ra : Half) (v : Word) :
    crcOk (buildWrite p dev ra v) = true := crcOk_withCrc _

@[simp] theorem crcOk_buildRead (p : Params) (dev : Byte) : crcOk (buildRead p dev) = true := crcOk_withCrc _

@[simp] theorem buildRead_length (p : Params) (dev : Byte) : (buildRead p dev).length = 8 := by
  simp [buildRead]

/-- Settles O8: the bytes are those the serialisers give, and the length is the sum of the parts' lengths. -/
theorem readFrameLayout : Obligations.ReadFrameLayout := by
  unfold Obligations.ReadFrameLayout
  exact fun p dev => ⟨rfl, buildRead_length p dev⟩

/-- Settles O9: each field stands at its place in the frame, and its bytes give its number back. -/
theorem writeFrameParsesBack : Obligations.WriteFrameParsesBack := by
  unfold Obligations.WriteFrameParsesBack
  exact fun p dev ra v =>
    ⟨rfl, rfl, toNat_be16_bytes ra, rfl, toNat_be32_bytes v, crcOk_buildWrite p dev ra v⟩

/-- Settles O10: both builders append the CRC to a sequence that begins with the address and the function code. -/
theorem framesBuiltAreCrcValid : Obligations.FramesBuiltAreCrcValid := by
  unfold Obligations.FramesBuiltAreCrcValid
  exact fun p dev ra v => ⟨⟨crcOk_buildWrite p dev ra v, rfl⟩, crcOk_buildRead p dev, rfl⟩

/-! ### The write acknowledgement -/

/-- An overflow, an expiry or an empty reply leaves nothing to confirm by (R440, R450). -/
theorem classifyWrite_noReply {r sent : List Byte} {expired ovf echo : Bool}
    (h : ovf = true ∨ expired = true ∨ r = []) : classifyWrite r sent expired ovf echo = .noReply := by
  rcases h with rfl | rfl | rfl <;> simp [classifyWrite]

/-- A reply that arrived is compared with the frame sent: all of it, or under ECHO = 1 a leading part (R440, R441). -/
theorem classifyWrite_reply {r : List Byte} (hne : r ≠ []) (sent : List Byte) (echo : Bool) :
    classifyWrite r sent false false echo =
      if r = sent ∨ (echo = true ∧ r <+: sent) then .ok else .notConfirmed := by
  have hprefix : (r.length ≤ sent.length ∧ r = sent.take r.length) ↔ r <+: sent := by
    rw [← List.prefix_iff_eq_take, and_iff_right_of_imp List.IsPrefix.length_le]
  have hwhole : r = sent ∨ r <+: sent ↔ r <+: sent := or_iff_right_of_imp fun h => h ▸ List.prefix_rfl
  cases echo <;> simp [classifyWrite, hne, hprefix, hwhole]

/-- Settles O11: without a reply the result is NO_REPLY; with one it is OK or NOT_CONFIRMED, by the comparison. -/
theorem writeEchoClassification : Obligations.WriteEchoClassification := by
  unfold Obligations.WriteEchoClassification
  intro r sent expired ovf echo
  by_cases hnone : ovf = true ∨ expired = true ∨ r = []
  case pos => rcases hnone with rfl | rfl | rfl <;> simp [classifyWrite_noReply]
  case neg =>
    obtain ⟨rfl, rfl, hne⟩ : ovf = false ∧ expired = false ∧ r ≠ [] := by simpa using hnone
    have hreject : ¬ (r = sent ∨ (echo = true ∧ r <+: sent)) ↔ r ≠ sent ∧ (echo = true → ¬ r <+: sent) := by
      rw [not_or, not_and]
    rw [classifyWrite_reply hne, ← hreject]
    by_cases haccept : r = sent ∨ (echo = true ∧ r <+: sent) <;> simp [haccept, hne]

/-! ### The read reply -/

/-- Only a reply that begins with the address, FC_READ and a byte count can be accepted, and none after an overflow or
an expiry (R446, R450). -/
theorem header_of_classifyRead {p : Params} {r pl : List Byte} {dev : Byte} {rxcrc expired ovf : Bool}
    (h : classifyRead p r dev rxcrc expired ovf = some pl) :
    ovf = false ∧ expired = false ∧ ∃ n t, r = dev :: p.fcRead :: n :: t := by
  have hflags : ¬ (ovf = true ∨ expired = true) := fun hf => by simp [classifyRead, hf] at h
  match r with
  | [] | [_] | [_, _] => simp [classifyRead] at h
  | a :: b :: n :: t =>
    have hhead : ¬ (a ≠ dev ∨ b ≠ p.fcRead) := fun hf => by simp [classifyRead, hf] at h
    obtain ⟨rfl, rfl⟩ : a = dev ∧ b = p.fcRead := by simpa using hhead
    exact ⟨by simpa using mt .inl hflags, by simpa using mt .inr hflags, n, t, rfl⟩

/-- RXCRC = 1, past the header: the declared payload and its CRC are there, and the CRC is valid (R445, R447, R448). -/
theorem classifyRead_checked_iff {p : Params} {dev n : Byte} {t pl : List Byte} :
    classifyRead p (dev :: p.fcRead :: n :: t) dev true false false = some pl ↔
      8 ≤ n.toNat ∧ n.toNat + 2 ≤ t.length ∧ crcOk (dev :: p.fcRead :: n :: t.take (n.toNat + 2)) = true ∧
        t.take 8 = pl := by
  have htake : (dev :: p.fcRead :: n :: t).take (3 + n.toNat + 2) = dev :: p.fcRead :: n :: t.take (n.toNat + 2) := by
    rw [show 3 + n.toNat + 2 = n.toNat + 2 + 3 by omega]; rfl
  have hlen : 3 + n.toNat ≤ t.length + 1 ↔ n.toNat + 2 ≤ t.length := by omega
  simp [classifyRead, htake, hlen]

/-- RXCRC = 0, past the header: eight bytes are there (R445, R448). -/
theorem classifyRead_unchecked_iff {p : Params} {dev n : Byte} {t pl : List Byte} :
    classifyRead p (dev :: p.fcRead :: n :: t) dev false false false = some pl ↔ 8 ≤ t.length ∧ t.take 8 = pl := by
  simp [classifyRead]

/-- A sequence of at least `k + 2` bytes is `k` bytes, two more, and a rest. -/
theorem exists_append_pair_append {t : List Byte} {k : Nat} (h : k + 2 ≤ t.length) :
    ∃ body lo hi rest, t = body ++ [lo, hi] ++ rest ∧ body.length = k := by
  have hlen : (t.take (k + 2)).length = k + 2 := List.length_take_of_le h
  obtain ⟨body, lo, hi, hcut⟩ := exists_append_pair (f := t.take (k + 2)) (by omega)
  refine ⟨body, lo, hi, t.drop (k + 2), by rw [← hcut, List.take_append_drop], ?_⟩
  simpa [hcut] using hlen

/-- RXCRC = 1, with the parts of the reply in sight (R322, R445). -/
theorem classifyRead_parts_iff {p : Params} {dev n lo hi : Byte} {body rest pl : List Byte}
    (hbody : body.length = n.toNat) :
    classifyRead p ([dev, p.fcRead, n] ++ body ++ [lo, hi] ++ rest) dev true false false = some pl ↔
      8 ≤ n.toNat ∧ (crc16 ([dev, p.fcRead, n] ++ body)).toNat = lo.toNat + 256 * hi.toNat ∧ pl = body.take 8 := by
  have hframe : (body ++ [lo, hi] ++ rest).take (n.toNat + 2) = body ++ [lo, hi] := List.take_left' (by simp [hbody])
  have hlen : n.toNat + 2 ≤ (body ++ [lo, hi] ++ rest).length := by simp [hbody]
  have hpayload (h : 8 ≤ n.toNat) : (body ++ [lo, hi] ++ rest).take 8 = body.take 8 := by
    rw [List.append_assoc, List.take_append_of_le_length (by omega)]
  refine (classifyRead_checked_iff (t := body ++ [lo, hi] ++ rest)).trans (and_congr_right fun hmin => ?_)
  rw [hframe, hpayload hmin, and_iff_right hlen, eq_comm (a := pl)]
  exact and_congr_left' (crcCheckComparesTrailingBytes.1 ([dev, p.fcRead, n] ++ body) lo hi)

/-- Settles O12: past the header the reply is cut at the declared count under RXCRC = 1, at 8 bytes under RXCRC = 0. -/
theorem readReplyClassification : Obligations.ReadReplyClassification := by
  unfold Obligations.ReadReplyClassification
  refine fun p r pl dev expired ovf => ⟨⟨fun h => ?toParts, ?fromParts⟩, fun h => ?toPayload, ?fromPayload⟩
  case toParts =>
    obtain ⟨rfl, rfl, n, t, rfl⟩ := header_of_classifyRead h
    obtain ⟨-, hlen, -⟩ := classifyRead_checked_iff.1 h
    obtain ⟨body, lo, hi, rest, rfl, hbody⟩ := exists_append_pair_append hlen
    obtain ⟨hmin, hcrc, hpl⟩ := (classifyRead_parts_iff hbody).1 h
    exact ⟨rfl, rfl, n, lo, hi, body, rest, rfl, hbody, hmin, hcrc, hpl⟩
  case fromParts =>
    rintro ⟨rfl, rfl, n, lo, hi, body, rest, rfl, hbody, hmin, hcrc, hpl⟩
    exact (classifyRead_parts_iff hbody).2 ⟨hmin, hcrc, hpl⟩
  case toPayload =>
    obtain ⟨rfl, rfl, n, t, rfl⟩ := header_of_classifyRead h
    obtain ⟨hlen, rfl⟩ := classifyRead_unchecked_iff.1 h
    exact ⟨rfl, rfl, List.length_take_of_le hlen, n, t.drop 8, by simp⟩
  case fromPayload =>
    rintro ⟨rfl, rfl, hpl, n, rest, rfl⟩
    exact classifyRead_unchecked_iff.2 ⟨by simp [hpl], List.take_left' hpl⟩

end Sys2Proof.Machine

/-! SUPPORT. The read command's payload (43_read_command.md R531 to R535): the number three bytes stand for, and the load
mode of the two-bit lane, with the obligation these settle. -/

namespace Sys2Proof.Machine

/-- Three bytes, highest first, as a number (R213): the bytes keep to their own bits. -/
theorem toNat_be24val (a b c : Byte) : (be24val a b c).toNat = a.toNat * 65536 + b.toNat * 256 + c.toNat := by
  have ha : (a.setWidth 24 <<< 16).toNat = a.toNat <<< 16 := by bv_omega
  have hb : (b.setWidth 24 <<< 8).toNat = b.toNat <<< 8 := by bv_omega
  have hc : (c.setWidth 24).toNat = c.toNat := BitVec.toNat_setWidth_of_le (by decide)
  have hlow : b.toNat <<< 8 + c.toNat < 2 ^ 16 := by omega
  rw [be24val, BitVec.or_assoc, BitVec.toNat_or, BitVec.toNat_or, ha, hb, hc,
    ← Nat.shiftLeft_add_eq_or_of_lt c.isLt, ← Nat.shiftLeft_add_eq_or_of_lt hlow]
  omega

/-- Every value of the two-bit lane is the code of the mode it decodes to (R325). -/
@[simp] theorem modeCode_modeOfCode : ∀ c : BitVec 2, modeCode (modeOfCode c) = c := by decide

/-- The mode decoded from a payload has bits 2:1 of byte 0 as its code (R531, R532). -/
theorem modeCode_decodeMeas (p : List Byte) : modeCode (decodeMeas p).mode = (p.getD 0 0#8).extractLsb' 1 2 :=
  modeCode_modeOfCode _

/-- Settles O13: the status byte and its bit 0 are taken over, the mode's code is a two-bit lane of that byte, and each
value is the number of its three bytes. -/
theorem measurementDecode : Obligations.MeasurementDecode := by
  unfold Obligations.MeasurementDecode
  refine fun st b1 v2 v1 v0 i2 i1 i0 => ⟨rfl, rfl, ?mode, toNat_be24val v2 v1 v0, toNat_be24val i2 i1 i0⟩
  case mode =>
    rw [modeCode_decodeMeas, BitVec.extractLsb'_toNat, Nat.shiftRight_eq_div_pow]
    rfl

end Sys2Proof.Machine

/-! SUPPORT. The channel (44_channel_io.md R560 to R579): the start of a transaction, the bytes received, the outcomes of a
poll, a step of the whole machine while BUSY, and the delay before a poll, with the obligations these settle. -/

namespace Sys2Proof.Machine

/-! ### The start of a transaction -/

/-- Above the frame TXBUF keeps its bytes (R563). -/
theorem txByte_startTransaction_above {f : List Byte} {j : Nat} (s : State) (h : f.length ≤ j) :
    txByte (startTransaction f s) j = txByte s j := by
  rw [txByte, txByte, startTransaction_txbuf, Memory.read_writeBytes_above _ _ _ _ (by omega)]

/-- Settles O24: the frame reads back, the bytes above it stay, and the other fields are those the update names. -/
theorem startTransactionLoadsFrame : Obligations.StartTransactionLoadsFrame := by
  unfold Obligations.StartTransactionLoadsFrame
  intro f s _
  exact ⟨txFrame_startTransaction f s, rfl, rfl, rfl, rfl, rfl, rfl, rfl, rfl, rfl, rfl,
    fun j hj => txByte_startTransaction_above s hj, rfl⟩

/-! ### Receive -/

theorem receive_discarded {v : Bool} {s : State} (h : v = false ∨ s.capture = false) (d : Byte) :
    receive v d s = s := by
  rcases h with h | h <;> simp [receive, h]

theorem receive_kept {s : State} (hc : s.capture = true) (hroom : s.rxlen < s.params.rxbufDepth) (d : Byte) :
    receive true d s = { s with rxbuf := Memory.write s.rxbuf s.rxlen d, rxlen := s.rxlen + 1 } := by
  simp [receive, hc, hroom]

theorem receive_lost {s : State} (hc : s.capture = true) (hfull : s.params.rxbufDepth ≤ s.rxlen) (d : Byte) :
    receive true d s = { s with status := { s.status with rxovf := true }, lost := true } := by
  simp [receive, hc, hfull.not_gt]

theorem rxByte_receive_kept_same {s : State} (hc : s.capture = true) (hroom : s.rxlen < s.params.rxbufDepth) (d : Byte) :
    rxByte (receive true d s) s.rxlen = d := by
  simp [receive_kept hc hroom, rxByte]

theorem rxByte_receive_kept_other {s : State} {j : Nat} (hc : s.capture = true) (hroom : s.rxlen < s.params.rxbufDepth)
    (d : Byte) (hj : j ≠ s.rxlen) : rxByte (receive true d s) j = rxByte s j := by
  simp [receive_kept hc hroom, rxByte, Memory.read_write_other _ _ hj]

/-- A byte that is kept comes after those captured before it (R561). -/
theorem rxReply_receive_kept {s : State} (hc : s.capture = true) (hroom : s.rxlen < s.params.rxbufDepth) (d : Byte) :
    rxReply (receive true d s) = rxReply s ++ [d] := by
  have hlen : (receive true d s).rxlen = s.rxlen + 1 := by rw [receive_kept hc hroom]
  have hbefore : (List.range s.rxlen).map (rxByte (receive true d s)) = rxReply s :=
    List.map_congr_left fun j hj => rxByte_receive_kept_other hc hroom d (List.mem_range.1 hj).ne
  rw [rxReply, hlen, List.range_succ, List.map_append, hbefore, List.map_singleton, rxByte_receive_kept_same hc hroom]

/-- Settles O27, by what becomes of the byte: discarded, kept, or lost. -/
theorem receiveCapturesInOrder : Obligations.ReceiveCapturesInOrder := by
  unfold Obligations.ReceiveCapturesInOrder
  refine fun v d s => ⟨fun h => receive_discarded h d, ?kept, ?lost⟩
  case kept =>
    rintro rfl hc hroom
    refine ⟨rxReply_receive_kept hc hroom d, ?_, fun j hj => rxByte_receive_kept_other hc hroom d hj, ?_⟩
    all_goals rw [receive_kept hc hroom]
  case lost =>
    rintro rfl hc hfull
    dsimp only
    rw [receive_lost hc hfull]

/-! ### Transmit -/

theorem transmit_not_ready (s : State) : transmit false s = s := rfl

theorem transmit_byte {s : State} (h : s.txidx + 1 ≠ s.txlen) : transmit true s = { s with txidx := s.txidx + 1 } := by
  rw [transmit, if_pos rfl, if_neg h]

theorem transmit_last_byte {s : State} (h : s.txidx + 1 = s.txlen) :
    transmit true s = { s with txidx := s.txidx + 1, phase := .wait, timer := s.settle } := by
  rw [transmit, if_pos rfl, if_pos h]

/-- Settles O28, by `tx_ready` and whether the byte offered is the last one. -/
theorem transmitHandshake : Obligations.TransmitHandshake := by
  unfold Obligations.TransmitHandshake
  intro rdy s hp
  rw [advance_tx rdy s hp]
  refine ⟨decide_eq_true hp, if_pos hp, ?notReady, ?more, ?last⟩
  case notReady => rintro rfl; exact transmit_not_ready s
  case more => rintro rfl h; exact transmit_byte h
  case last => rintro rfl h; exact transmit_last_byte h

/-! ### Termination -/

/-- LASTOP 0x01 to 0x06 is a SET command (R481). -/
theorem exists_opQuantity {op : Byte} (hlo : 1 ≤ op.toNat) (hhi : op.toNat ≤ 6) : ∃ q, opQuantity op = some q := by
  interval_cases h : op.toNat <;> simp [opQuantity, h]

/-- Settles O31: LASTOP tells a SET command from the read, and a read's outcome is that of its reply. -/
theorem terminateRecordsOutcome : Obligations.TerminateRecordsOutcome := by
  unfold Obligations.TerminateRecordsOutcome
  refine fun s => ⟨fun hlo hhi => ?write, fun hop => ⟨fun p hreply => ?accepted, fun hreply => ?rejected⟩⟩
  case write =>
    obtain ⟨q, hq⟩ := exists_opQuantity hlo hhi
    exact terminate_write s q hq
  all_goals
    rw [terminate_read s (by rw [hop]; rfl), hreply]
    rfl

/-! ### The outcomes of the block's phases -/

/-- The state that Receive leaves in a step, which the block's phase 2 advances (R560, R561). -/
def received (s : State) : State := receive (wiresNow s).rxValid (wiresNow s).rxData (startStep s)

theorem afterBlock_eq_advance {s : State} (hr : (wiresNow s).rst = false) :
    afterBlock s = advance (wiresNow s).txReady (received s) := afterBlock_no_reset s hr

@[simp] theorem received_busy (s : State) : (received s).status.busy = s.status.busy := by rw [received, receive_frame]; rfl
@[simp] theorem received_phase (s : State) : (received s).phase = s.phase := by rw [received, receive_frame]; rfl
@[simp] theorem received_settle (s : State) : (received s).settle = s.settle := by rw [received, receive_frame]; rfl
@[simp] theorem received_gap (s : State) : (received s).gap = s.gap := by rw [received, receive_frame]; rfl
@[simp] theorem received_txlen (s : State) : (received s).txlen = s.txlen := by rw [received, receive_frame]; rfl
@[simp] theorem received_txidx (s : State) : (received s).txidx = s.txidx := by rw [received, receive_frame]; rfl
@[simp] theorem received_timer (s : State) : (received s).timer = s.timer := by rw [received, receive_frame]; rfl
@[simp] theorem received_mark (s : State) : (received s).mark = s.mark := by rw [received, receive_frame]; rfl
@[simp] theorem received_gaps (s : State) : (received s).gaps = s.gaps := by rw [received, receive_frame]; rfl
@[simp] theorem received_wires (s : State) : (received s).wires = s.wires.tail := by rw [received, receive_frame]; rfl

theorem afterBlock_tx {s : State} (hr : (wiresNow s).rst = false) (hp : s.phase = .tx) :
    afterBlock s = transmit (wiresNow s).txReady (received s) := by
  rw [afterBlock_eq_advance hr, advance_tx _ _ (by simp [hp])]

/-- From PHASE = WAIT, with more than one step to wait, the block counts down (R567). -/
theorem afterBlock_wait {s : State} (hr : (wiresNow s).rst = false) (hp : s.phase = .wait) (ht : 2 ≤ s.timer.toNat) :
    afterBlock s = { received s with timer := s.timer - 1#32 } := by
  rw [afterBlock_eq_advance hr, advance_wait _ _ (by simp [hp])]
  rcases waitTick_cases (received s) with ⟨_, h⟩ | ⟨hle, _⟩
  · rw [h, received_timer]
  · rw [received_timer] at hle; omega

/-- From PHASE = WAIT, with at most one step to wait, the block polls (R567, R568). -/
theorem afterBlock_poll {s : State} (hr : (wiresNow s).rst = false) (hp : s.phase = .wait) (ht : s.timer.toNat ≤ 1) :
    afterBlock s = poll { received s with timer := 0#32 } := by
  rw [afterBlock_eq_advance hr, advance_wait _ _ (by simp [hp])]
  rcases waitTick_cases (received s) with ⟨hge, _⟩ | ⟨_, h⟩
  · rw [received_timer] at hge; omega
  · exact h

/-- A poll ends the transaction, or starts a pause of GAP with the transaction running (R568, R569). -/
theorem poll_terminates_or_pauses (s : State) :
    (∃ u, poll s = terminate u) ∨
      ((poll s).timer = s.gap ∧ (poll s).phase = s.phase ∧ (poll s).status.busy = s.status.busy) := by
  rcases poll_cases s with ⟨_, h⟩ | ⟨_, _, _, h⟩ | ⟨_, _, h⟩
  · exact .inl ⟨_, h⟩
  · exact .inl ⟨_, h⟩
  · rw [h]; exact .inr ⟨rfl, rfl, rfl⟩

theorem afterBlock_terminates_or_pauses {s : State} (hr : (wiresNow s).rst = false) (hp : s.phase = .wait)
    (ht : s.timer.toNat ≤ 1) :
    (∃ u, afterBlock s = terminate u) ∨
      ((afterBlock s).timer = s.gap ∧ (afterBlock s).phase = .wait ∧ (afterBlock s).status.busy = s.status.busy) := by
  rw [afterBlock_poll hr hp ht]
  simpa [hp] using poll_terminates_or_pauses { received s with timer := 0#32 }

/-- The block's phases keep a transaction running, or end it by a poll that is due (R579). -/
theorem afterBlock_keeps_transaction_or_terminates {s : State} (hr : (wiresNow s).rst = false) (hp : s.phase ≠ .idle) :
    ((afterBlock s).status.busy = s.status.busy ∧ (afterBlock s).phase ≠ .idle) ∨
      (s.phase = .wait ∧ s.timer.toNat ≤ 1 ∧ ∃ u, afterBlock s = terminate u) := by
  cases hphase : s.phase with
  | idle => exact absurd hphase hp
  | tx =>
    rw [afterBlock_tx hr hphase]
    rcases transmit_cases (wiresNow s).txReady (received s) with ⟨_, h⟩ | ⟨_, _, h⟩ | ⟨_, _, h⟩
    all_goals simp [h, hphase]
  | wait =>
    by_cases ht : s.timer.toNat ≤ 1
    · rcases afterBlock_terminates_or_pauses hr hphase ht with h | ⟨_, hwait, hbusy⟩
      · exact .inr ⟨rfl, ht, h⟩
      · exact .inl ⟨hbusy, by simp [hwait]⟩
    · rw [afterBlock_wait hr hphase (by omega)]
      simp [hphase]

/-! ### A step of the whole machine while BUSY -/

theorem issue_next (v : Word) (s : State) : ∃ t, issue v s = .next t := by
  cases hd : decode v with
  | ok i => rw [issue_ok hd]; exact exec_next i s
  | error e => obtain ⟨op⟩ := e; exact ⟨_, issue_error hd s⟩

theorem acceptWrite_next (r : HostReg) (v : Word) (s : State) : ∃ t, acceptWrite r v s = .next t := by
  cases r with
  | cmd => exact issue_next v s
  | _ => exact ⟨_, rfl⟩

theorem hostWrite_next (idx : BitVec 4) (v : Word) (s : State) : ∃ t, hostWrite idx v s = .next t := by
  unfold hostWrite
  split
  · split
    · exact ⟨_, rfl⟩
    · exact acceptWrite_next _ v s
  · exact ⟨_, rfl⟩

/-- No host access stops the machine (R644). -/
theorem hostAccess_next (p : HostPort) (s : State) : ∃ t, hostAccess p s = .next t := by
  unfold hostAccess
  split_ifs
  · exact hostWrite_next _ _ _
  · exact ⟨_, rfl⟩
  · exact ⟨_, rfl⟩

/-- While BUSY a step is what the block's phases leave: the host's access may retire its line, drive `h_rdata` and set OVR,
and does nothing else (R204). -/
theorem step_of_busy {s : State} (hr : (wiresNow s).rst = false) (hb : (afterBlock s).status.busy = true) :
    ∃ ls ovr v, step s = .next
      { afterBlock s with
        hostProgram := ls, status := { (afterBlock s).status with ovr := ovr }
        out := { (afterBlock s).out with hRdata := v } } := by
  obtain ⟨t, h⟩ := hostAccess_next (hostPortNow s) (beforeHost s)
  have hstep : step s = .next t := by simpa [step, cycle, hr] using h
  obtain ⟨ls, ha⟩ := hostAccess_of_step hstep hr
  obtain ⟨v, rfl | rfl⟩ := hostAccess_busy ha hb
  · exact ⟨ls, (afterBlock s).status.ovr, v, hstep⟩
  · exact ⟨ls, true, v, hstep⟩

/-- Settles O46: a transaction that the block's phases keep running is still running after the host's access. -/
theorem transactionEndsOnlyByTermination : Obligations.TransactionEndsOnlyByTermination := by
  unfold Obligations.TransactionEndsOnlyByTermination
  intro s hinv hb hr
  rcases afterBlock_keeps_transaction_or_terminates hr (hinv.busyPhase.1 hb) with ⟨hbusy, hphase⟩ | ⟨hp, ht, u, hu⟩
  · refine .inl ⟨hbusy.trans hb, hphase, fun t hstep => ?_⟩
    obtain ⟨ls, ovr, v, h⟩ := step_of_busy hr (hbusy.trans hb)
    cases h.symm.trans hstep
    exact ⟨hbusy.trans hb, rfl⟩
  · simp [hu, hp, ht]

/-! ### The delay before a poll -/

/-- A step with more than one step to wait counts the timer down and leaves the drain where it is (R567). -/
theorem step_waits {s : State} (hb : s.status.busy = true) (hp : s.phase = .wait) (hr : (wiresNow s).rst = false)
    (ht : 2 ≤ s.timer.toNat) :
    ∃ t, step s = .next t ∧ t.status.busy = true ∧ t.phase = .wait ∧ t.timer.toNat = s.timer.toNat - 1 ∧
      t.mark = s.mark ∧ t.gaps = s.gaps ∧ t.wires = s.wires.tail := by
  have hblock := afterBlock_wait hr hp ht
  obtain ⟨ls, ovr, v, h⟩ := step_of_busy hr (by simp [hblock, hb])
  have htimer : (s.timer - 1#32).toNat = s.timer.toNat - 1 := by bv_omega
  exact ⟨_, h, by simp [hblock, hb, hp, htimer]⟩

/-- The waiting of `step_waits` over a run, for as long as no poll is due. -/
theorem run_waits {ws : List Wires} {s : State} (hb : s.status.busy = true) (hp : s.phase = .wait)
    (hws : ws <+: s.wires) (hr : ∀ w ∈ ws, w.rst = false) (hlen : ws.length < max s.timer.toNat 1) :
    ∃ t, Sys2Proof.core.run ws.length s = .next t ∧ t.status.busy = true ∧ t.phase = .wait ∧
      t.timer.toNat = s.timer.toNat - ws.length ∧ t.mark = s.mark ∧ t.gaps = s.gaps := by
  induction ws generalizing s with
  | nil => exact ⟨s, rfl, hb, hp, rfl, rfl, rfl⟩
  | cons w ws ih =>
    obtain ⟨later, hwires⟩ := hws
    rw [List.length_cons] at hlen ⊢
    have hnow : wiresNow s = w := by simp [wiresNow, ← hwires]
    obtain ⟨u, hstep, hbu, hpu, htu, hmu, hgu, hwu⟩ :=
      step_waits hb hp (by rw [hnow]; exact hr w List.mem_cons_self) (by omega)
    obtain ⟨t, hrun, hbt, hpt, htt, hmt, hgt⟩ :=
      ih hbu hpu ⟨later, by simp [hwu, ← hwires]⟩ (fun x hx => hr x (List.mem_cons_of_mem _ hx)) (by omega)
    exact ⟨t, (run_succ _ _ _ hstep).trans hrun, hbt, hpt, by omega, hmt.trans hmu, hgt.trans hgu⟩

/-- Settles O32: the last handshake and a poll that goes on load the timer, the timer counts down to 1, and then the block
polls. -/
theorem pollComesAfterTheDelay : Obligations.PollComesAfterTheDelay := by
  unfold Obligations.PollComesAfterTheDelay
  refine ⟨fun s hb hp hlast hr hready => ?settle, fun s hb hp ht hr hgo => ?gap, fun s ws hb hp hws hr hlen => ?wait⟩
  case settle =>
    have hblock := afterBlock_tx hr hp
    rw [hready, transmit_last_byte (by simpa using hlast)] at hblock
    obtain ⟨ls, ovr, v, h⟩ := step_of_busy hr (by simp [hblock, hb])
    exact ⟨_, h, by simp [hblock, hb]⟩
  case gap =>
    rcases afterBlock_terminates_or_pauses hr hp ht with ⟨u, hend⟩ | ⟨htimer, _, hbusy⟩
    · simp [hend] at hgo
    · obtain ⟨ls, ovr, v, h⟩ := step_of_busy hr (hbusy.trans hb)
      exact ⟨_, h, hbusy.trans hb, hgo, htimer⟩
  case wait =>
    obtain ⟨t, hrun, hbt, hpt, htt, hmt, hgt⟩ := run_waits hb hp hws hr hlen
    exact ⟨t, hrun, hbt, hpt, htt, hmt, hgt, fun hdue hrt => afterBlock_poll hrt hpt (by omega)⟩

end Sys2Proof.Machine

/-! SUPPORT. How a method's answer depends on the RESULT it reads (45_host_adapter.md R611, R613, R614): one equation for
each of the adapter's two errors, one for the writes, and two for the read. -/

namespace Sys2Proof.Machine

/-- The results have distinct codes (R630), so a code read from STATUS names one result. -/
@[simp] theorem resultCode_inj (a b : Result) : resultCode a = resultCode b ↔ a = b := by
  cases a <;> cases b <;> decide

section
variable {status : Word}

theorem methodAnswer_invalidInput (h : resultField status = resultCode .invalidInput) (m : Method) (more : List Word) :
    methodAnswer m (status :: more) = .error .invalidInput := by
  simp [methodAnswer, h]

theorem methodAnswer_closed (h : resultField status = resultCode .closed) (m : Method) (more : List Word) :
    methodAnswer m (status :: more) = .error .sessionClosed := by
  simp [methodAnswer, h]

/-- Every result that raises no error is a write's Boolean: whether it is OK (R605 to R610, R613). -/
theorem methodAnswer_write {r : Result} (h : resultField status = resultCode r) (hinvalid : r ≠ .invalidInput)
    (hclosed : r ≠ .closed) {m : Method} (hm : m ≠ .getMeasurements) (more : List Word) :
    methodAnswer m (status :: more) = .ok (.wrote (decide (r = .ok))) := by
  cases m with
  | getMeasurements => exact absurd rfl hm
  | _ => simp [methodAnswer, h, hinvalid, hclosed]

/-- An OK read answers the snapshot in the three measurement words that follow STATUS (R611). -/
theorem methodAnswer_read_ok (h : resultField status = resultCode .ok) (more : List Word) :
    methodAnswer .getMeasurements (status :: more) =
      .ok (.measured (some (snapshotOf (more.getD 0 0#32) (more.getD 1 0#32) (more.getD 2 0#32)))) := by
  simp [methodAnswer, h]

theorem methodAnswer_read_none {r : Result} (h : resultField status = resultCode r) (hinvalid : r ≠ .invalidInput)
    (hclosed : r ≠ .closed) (hok : r ≠ .ok) (more : List Word) :
    methodAnswer .getMeasurements (status :: more) = .ok (.measured none) := by
  simp [methodAnswer, h, hinvalid, hclosed, hok]

end

/-- Settles O58: each result the statement names falls under one of the equations of `methodAnswer`. -/
theorem adapterSurfacesResults : Obligations.AdapterSurfacesResults := by
  unfold Obligations.AdapterSurfacesResults
  refine fun m r status more h => ⟨?invalidInput, ?closed, ?writeTrue, ?writeFalse, ?readSome, ?readNone⟩
  case invalidInput =>
    rintro rfl
    exact methodAnswer_invalidInput h m more
  case closed =>
    rintro rfl
    exact methodAnswer_closed h m more
  case writeTrue =>
    rintro hm rfl
    exact methodAnswer_write h (by decide) (by decide) hm more
  case writeFalse =>
    rintro hm (rfl | rfl) <;> exact methodAnswer_write h (by decide) (by decide) hm more
  case readSome =>
    rintro rfl rfl
    exact ⟨_, methodAnswer_read_ok h more⟩
  case readNone =>
    rintro rfl rfl
    exact methodAnswer_read_none h (by decide) (by decide) (by decide) more

end Sys2Proof.Machine

/-! SUPPORT. A reset step (R700, R701): the state it answers, and the two reset values that R9 computes from F_CLK as the
least integers not below their quotients. -/

namespace Sys2Proof.Machine

/-! ### The reset values of SETTLE and GAP -/

/-- The model's `ceilDiv` is Mathlib's `⌈/⌉`: the least integer whose product with `den` is not below `num`. -/
theorem ceilDiv_le_iff {num den n : Nat} (hden : 0 < den) : ceilDiv num den ≤ n ↔ num ≤ den * n :=
  ceilDiv_le_iff_le_mul hden

theorem le_mul_ceilDiv {den : Nat} (hden : 0 < den) (num : Nat) : num ≤ den * ceilDiv num den :=
  (ceilDiv_le_iff hden).1 le_rfl

theorem mul_ceilDiv_lt {den : Nat} (hden : 0 < den) (num : Nat) : den * ceilDiv num den < num + den := by
  have hle : den * ceilDiv num den ≤ num + den - 1 := Nat.mul_div_le _ _
  omega

/-- A quotient that fits a 32-bit register is held there unchanged. -/
theorem toNat_ofNat_ceilDiv {num den : Nat} (hden : 0 < den) (hfit : num ≤ den * (2 ^ 32 - 1)) :
    (BitVec.ofNat 32 (ceilDiv num den)).toNat = ceilDiv num den := by
  have hle : ceilDiv num den ≤ 2 ^ 32 - 1 := (ceilDiv_le_iff hden).2 hfit
  rw [BitVec.toNat_ofNat, Nat.mod_eq_of_lt (by omega)]

section
variable {p : Params} (hwf : p.wf = true) (hfit : p.fClkNum ≤ 10 * p.fClkDen * (2 ^ 32 - 1))
include hwf

theorem fClkDen_pos : 0 < p.fClkDen := by
  simp only [Params.wf, Bool.and_eq_true, decide_eq_true_eq] at hwf
  exact hwf.1.2

include hfit

theorem toNat_settleReset : (settleReset p).toNat = ceilDiv p.fClkNum (10 * p.fClkDen) :=
  toNat_ofNat_ceilDiv (Nat.mul_pos (by decide) (fClkDen_pos hwf)) hfit

/-- GAP's quotient is half of SETTLE's, so it fits where SETTLE's does. -/
theorem toNat_gapReset : (gapReset p).toNat = ceilDiv p.fClkNum (20 * p.fClkDen) :=
  toNat_ofNat_ceilDiv (Nat.mul_pos (by decide) (fClkDen_pos hwf))
    (hfit.trans (Nat.mul_le_mul_right _ (Nat.mul_le_mul_right _ (by decide))))

end

/-! ### The reset step -/

/-- A reset step answers the block's reset state with `h_rdata = 0`, whatever host lines remain. -/
theorem step_of_reset {s : State} (hr : (wiresNow s).rst = true) :
    ∃ ls, step s = .next (setReadData 0#32 { resetBlock (startStep s) with hostProgram := ls }) := by
  have hstep : step s = .next (setReadData 0#32 (retireLine (resetBlock (startStep s)))) := by
    simp [step, cycle, hr, beforeHost, afterBlock_reset s hr]
  rw [retireLine_frame] at hstep
  exact ⟨_, hstep⟩

/-- CTRL reads 2 in the cleared state: RXCRC alone is set (R112, R700). -/
theorem ctrlWord_cleared : ctrlWord { en := false, rxcrc := true, echo := false } = 0x00000002#32 := by decide

/-- STATUS reads 0 in the cleared state (R119, R700). -/
theorem statusWord_cleared :
    statusWord
      { busy := false, done := false, ovr := false, rxovf := false, expired := false, result := .none, lastop := 0#8 }
      .idle = 0#32 := by
  decide

/-- Settles O37: the state of `step_of_reset` holds the reset values, of which SETTLE and GAP are ceilings. -/
theorem resetStepClearsTheBlock : Obligations.ResetStepClearsTheBlock := by
  unfold Obligations.ResetStepClearsTheBlock
  intro s hr
  obtain ⟨ls, hstep⟩ := step_of_reset hr
  refine ⟨_, hstep, rfl, ctrlWord_cleared, rfl, fun hwf hfit => ?ceilings, rfl, rfl, rfl, statusWord_cleared,
    rfl, rfl, rfl, rfl, rfl, rfl, rfl, rfl, rfl, rfl, rfl, rfl, rfl, rfl, rfl⟩
  have hden := fClkDen_pos hwf
  have hsettle := toNat_settleReset hwf hfit
  have hgap := toNat_gapReset hwf hfit
  change _ ≤ _ * (settleReset s.params).toNat ∧ _ * (settleReset s.params).toNat < _ ∧
    _ ≤ _ * (gapReset s.params).toNat ∧ _ * (gapReset s.params).toNat < _
  rw [hsettle, hgap]
  exact ⟨le_mul_ceilDiv (by omega) _, mul_ceilDiv_lt (by omega) _, le_mul_ceilDiv (by omega) _,
    mul_ceilDiv_lt (by omega) _⟩

end Sys2Proof.Machine

/-! SUPPORT. The invariant `Inv` (10_state.md section 4): each operation of a step keeps it, so every step does, and the
machine starts in it, with the obligations these settle. -/

namespace Sys2Proof.Machine

/-! ### Reset -/

/-- A closed and idle block satisfies the invariant, whatever its parameters in range. -/
theorem inv_resetWith {p : Params} (hp : p.wf = true) : Inv (State.resetWith p) := by
  constructor <;> simp [State.resetWith, hp, Memory.wf]

theorem config_params_wf : Config.params.wf = true := by
  simp [Params.wf, Config.params, Config.rxbufDepth]

/-- Settles O39: the machine starts right after a reset, with its parameters in range. -/
theorem invariantAtReset : Obligations.InvariantAtReset := by
  unfold Obligations.InvariantAtReset
  exact inv_resetWith config_params_wf

/-! ### Memory -/

/-- A write loses no index that was written. -/
theorem Memory.isSome_read_write {m : Memory} {a i : Nat} (b : Byte) (h : i = a ∨ (Memory.read m i).isSome = true) :
    (Memory.read (Memory.write m a b) i).isSome = true := by
  by_cases hi : i = a
  · rw [hi, Memory.read_write_same, Option.isSome_some]
  · rw [Memory.read_write_other m b hi]
    exact h.resolve_left hi

section
variable {s : State} (h : Inv s)
include h

/-! ### What the invariant does not speak of -/

/-- The invariant says nothing of the inputs, the step count, the outputs and OVR. -/
theorem inv_outside (ws : List Wires) (ls : List HostLine) (n : Nat) (o : Outputs) (ovr : Bool) :
    Inv { s with wires := ws, hostProgram := ls, now := n, out := o, status := { s.status with ovr := ovr } } :=
  { h with }

theorem inv_expired (e : Bool) : Inv { s with status := { s.status with expired := e } } := { h with }

theorem Inv.idle_of_free (hb : s.status.busy = false) : s.phase = .idle := by
  by_contra hp
  exact Bool.eq_false_iff.1 hb (h.busyPhase.2 hp)

/-! ### The block's phases -/

theorem inv_receive (v : Bool) (d : Byte) : Inv (receive v d s) := by
  rcases receive_cases v d s with ⟨_, e⟩ | ⟨_, _, hroom, e⟩ | ⟨_, _, hfull, e⟩ <;> rw [e]
  · exact h
  · exact { h with
      rxbufWf := Memory.write_wf _ _ _ h.rxbufWf
      rxbufBound := Memory.write_bound _ _ _ _ hroom h.rxbufBound
      rxlen := hroom
      mark := h.mark.trans (Nat.le_succ _)
      rxWritten := fun i hi =>
        Memory.isSome_read_write d ((Nat.lt_succ_iff_lt_or_eq.1 hi).symm.imp_right (h.rxWritten i))
      lostFull := fun hb hl => absurd (h.lostFull hb hl).1 hroom.ne }
  · exact { h with lostFull := fun _ _ => ⟨le_antisymm h.rxlen hfull, rfl⟩ }

theorem inv_transmit (r : Bool) (hp : s.phase = .tx) : Inv (transmit r s) := by
  obtain ⟨hleft, htimer, hgaps, hmark⟩ := h.sending hp
  rcases transmit_cases r s with ⟨_, e⟩ | ⟨_, hmore, e⟩ | ⟨_, hlast, e⟩ <;> rw [e]
  · exact h
  · exact { h with
      txidx := hleft
      sending := fun _ => ⟨lt_of_le_of_ne hleft hmore, htimer, hgaps, hmark⟩
      waiting := fun hw => by simp [hp] at hw }
  · exact { h with
      txidx := hleft
      busyPhase := by simpa [hp] using h.busyPhase
      sending := nofun
      waiting := fun _ => ⟨hlast, .inl (BitVec.le_refl _)⟩ }

/-- Only a termination of the read changes the measurement registers; it sets VALID or clears them all. -/
theorem terminate_keeps_cleared (hv : (terminate s).meas.valid = false) :
    (terminate s).meas.on = false ∧ (terminate s).meas.mode = .cv ∧ (terminate s).meas.rawstat = 0#8 ∧
      (terminate s).measV = 0#24 ∧ (terminate s).measI = 0#24 := by
  cases hq : opQuantity s.status.lastop with
  | some q =>
    obtain ⟨hm, hmv, hmi⟩ := terminate_write_meas s q hq
    rw [hm] at hv ⊢
    rw [hmv, hmi]
    exact h.cleared hv
  | none =>
    rcases terminate_read_meas s hq with hvalid | ⟨hm, hmv, hmi⟩
    · simp [hvalid] at hv
    · simp [hm, hmv, hmi]

theorem inv_terminate : Inv (terminate s) := by
  have hcleared := terminate_keeps_cleared h
  have hresult : (terminate s).status.result ≠ .none := by
    rcases terminate_result s with e | e | e <;> simp [e]
  rw [terminate_frame]
  exact { h with
    busyPhase := by simp
    captureBusy := rfl
    doneNotBusy := nofun
    doneResult := fun _ => hresult
    sending := nofun
    waiting := nofun
    gaps := nofun
    lostFull := nofun
    busyOpen := nofun
    frame := nofun
    operand := nofun
    cleared := hcleared }

theorem inv_poll (hp : s.phase = .wait) : Inv (poll s) := by
  rcases poll_cases s with ⟨_, e⟩ | ⟨_, _, _, e⟩ | ⟨_, hmore, e⟩ <;> rw [e]
  · exact inv_terminate h
  · exact inv_terminate (inv_expired h true)
  · exact { h with
      mark := le_rfl
      sending := fun ht => by simp [hp] at ht
      waiting := fun _ => ⟨(h.waiting hp).1, .inr (BitVec.le_refl _)⟩
      gaps := fun hb hm => by
        have hle := h.gaps hb hm
        have hne := hmore.resolve_left hm
        show s.gaps + 1#32 ≤ s.maxgap
        bv_omega
      lostFull := nofun }

/-- A timer that runs down stays within the delay it was loaded with. -/
theorem inv_timer {t : Word} (hp : s.phase = .wait) (ht : t ≤ s.timer) : Inv { s with timer := t } :=
  { h with
    sending := fun htx => by simp [hp] at htx
    waiting := fun _ => (h.waiting hp).imp_right (.imp (BitVec.le_trans ht) (BitVec.le_trans ht)) }

theorem inv_waitTick (hp : s.phase = .wait) : Inv (waitTick s) := by
  rcases waitTick_cases s with ⟨ht, e⟩ | ⟨_, e⟩ <;> rw [e]
  · exact inv_timer h hp (by bv_omega)
  · exact inv_poll (inv_timer h hp (by bv_omega)) hp

theorem inv_advance (r : Bool) : Inv (advance r s) := by
  cases hp : s.phase with
  | idle => rwa [advance_idle r s hp]
  | tx => rw [advance_tx r s hp]; exact inv_transmit h r hp
  | wait => rw [advance_wait r s hp]; exact inv_waitTick h hp

theorem inv_startStep : Inv (startStep s) := inv_outside h _ _ _ _ _

theorem inv_afterBlock : Inv (afterBlock s) := by
  cases hr : (wiresNow s).rst with
  | true =>
    rw [afterBlock_reset s hr]
    exact inv_outside (inv_resetWith h.params) _ _ _ _ _
  | false =>
    rw [afterBlock_eq_advance hr]
    exact inv_advance (inv_receive (inv_startStep h) _ _) _

/-! ### The host's access -/

/-- Between transactions the settings are free (R205). -/
theorem inv_settings (hb : s.status.busy = false) (c : Ctrl) (d : Byte) (se g m a : Word) :
    Inv { s with ctrl := c, devaddr := d, settle := se, gap := g, maxgap := m, arg := a } := by
  have hbusy : ¬ s.status.busy = true := Bool.eq_false_iff.1 hb
  have hp := h.idle_of_free hb
  exact { h with
    waiting := fun hw => by simp [hp] at hw
    gaps := fun hb' => absurd hb' hbusy
    busyOpen := fun hb' => absurd hb' hbusy
    frame := fun hb' => absurd hb' hbusy
    operand := fun hb' => absurd hb' hbusy }

theorem inv_clearMeas : Inv (clearMeas s) := { h with cleared := fun _ => ⟨rfl, rfl, rfl, rfl, rfl⟩ }

/-- A completion at issue leaves a result and no transaction (R562, R564). -/
theorem inv_finish (hb : s.status.busy = false) (op : Byte) {c : Result} (hc : c ≠ .none) :
    Inv (finish c (prepareIssue op s)) := by
  have hbusy : ¬ s.status.busy = true := Bool.eq_false_iff.1 hb
  exact { h with
    doneNotBusy := fun hb' => absurd hb' hbusy
    doneResult := fun _ => hc
    lostFull := fun hb' => absurd hb' hbusy
    busyOpen := fun hb' => absurd hb' hbusy
    frame := fun hb' => absurd hb' hbusy
    operand := fun hb' => absurd hb' hbusy }

/-- A transaction starts in an open session with the frame of its command (R482, R530, R563). -/
theorem inv_startTransaction {f : List Byte} {op : Byte} (hen : s.ctrl.en = true) (hop : 1 ≤ op.toNat ∧ op.toNat ≤ 7)
    (hlen : f.length = 8 ∨ f.length = 13) (hf : f = requestFrame (prepareIssue op s))
    (harg : ∀ q, opQuantity op = some q → inRange q (sint32 s.arg) = true) :
    Inv (startTransaction f (prepareIssue op s)) :=
  { h with
    txbufWf := startTransaction_wf f _ h.txbufWf
    txbufBound := Memory.writeBytes_bound _ _ _ _ (by omega) h.txbufBound
    txlen := .inr hlen
    txidx := Nat.zero_le _
    rxlen := Nat.zero_le _
    mark := le_rfl
    txWritten := fun i hi => by
      have hread := Memory.read_writeBytes s.txbuf 0 i f hi
      rw [Nat.zero_add] at hread
      exact (congrArg Option.isSome hread).trans rfl
    rxWritten := nofun
    busyPhase := by simp
    captureBusy := rfl
    doneNotBusy := fun _ => rfl
    doneResult := nofun
    sending := fun _ => ⟨by show 0 < f.length; omega, rfl, rfl, rfl⟩
    waiting := nofun
    gaps := fun _ _ => Nat.zero_le _
    lostFull := nofun
    busyOpen := fun _ => ⟨hen, hop⟩
    frame := fun _ => (txFrame_startTransaction f _).trans hf
    operand := fun _ => harg }

theorem inv_exec {i : Instr} {t : State} (hb : s.status.busy = false) (he : exec i s = .next t) : Inv t := by
  rcases exec_cases i s t he with ⟨c, hc, _, rfl⟩ | ⟨rfl, _, rfl⟩ | ⟨q, hq, hr, hen, rfl⟩ | ⟨rfl, hen, rfl⟩
  · exact inv_finish h hb _ (by rcases hc with rfl | rfl <;> decide)
  · exact inv_finish (inv_clearMeas h) hb _ (by decide)
  · refine inv_startTransaction h hen (by cases i <;> decide) (.inr (buildWrite_length _ _ _ _)) ?_ ?_
    · simp [requestFrame, hq]
    · rintro q' hq'
      cases hq.symm.trans hq'
      exact hr
  · exact inv_startTransaction h hen (by decide) (.inl (buildRead_length _ _)) rfl nofun

theorem inv_hostAccess {p : HostPort} {t : State} (ha : hostAccess p s = .next t) : Inv t := by
  have hread (v : Word) : Inv (setReadData v s) := inv_outside h _ _ _ _ _
  rcases hostAccess_cases p s t ha with ⟨_, rfl⟩ | ⟨_, _, rfl⟩ | ⟨_, _, u, rfl, hw⟩
  · exact hread _
  · exact hread _
  · have hu := hread (Config.freeReadData s.now)
    rcases hw with ⟨_, _, _, _, rfl⟩ | ⟨_, rfl⟩ | ⟨hb, ht⟩ | ⟨_, hb, i, _, he⟩ | ⟨_, hb, op, _, rfl⟩
    · exact inv_outside h _ _ _ _ _
    · exact hu
    · rw [ht]; exact inv_settings hu hb _ _ _ _ _ _
    · exact inv_exec hu hb he
    · exact inv_finish hu hb _ nofun

theorem inv_step {t : State} (hstep : step s = .next t) : Inv t := by
  have hbefore : Inv (beforeHost s) := by
    rw [beforeHost, retireLine_frame]
    exact inv_outside (inv_afterBlock h) _ _ _ _ _
  cases hr : (wiresNow s).rst with
  | true =>
    obtain rfl : setReadData 0#32 (beforeHost s) = t := by simpa [step, cycle, hr] using hstep
    exact inv_outside hbefore _ _ _ _ _
  | false => exact inv_hostAccess hbefore (by simpa [step, cycle, hr] using hstep)

end

/-- Settles O40: reset, the block's phases and the host's access each keep the invariant. -/
theorem stepKeepsInvariant : Obligations.StepKeepsInvariant := by
  unfold Obligations.StepKeepsInvariant
  exact fun s t h hstep => inv_step h hstep

end Sys2Proof.Machine

/-! SUPPORT. The command encoding both ways (30_encoding.md R300, R310, R311), and the issue step of each command (R481,
R482, R530, R562 to R564), with the obligations these settle. -/

namespace Sys2Proof.Machine

/-! ### The OP of a command -/

/-- The opcode map is read as it is written: an OP selects the command whose OP it is. -/
theorem decodeOp_eq_ok_iff {op : Byte} {i : Instr} : decodeOp op = .ok i ↔ op = opcode i := by
  constructor
  · unfold decodeOp
    split
    case h_8 => nofun
    all_goals
      rintro ⟨⟩
      exact BitVec.eq_of_toNat_eq ‹_›
  · rintro rfl
    cases i <;> rfl

theorem exists_decodeOp {op : Byte} (hlo : 1 ≤ op.toNat) (hhi : op.toNat ≤ 7) : ∃ i, decodeOp op = .ok i := by
  interval_cases h : op.toNat <;> simp [decodeOp, h]

/-- An OP is rejected as itself, and only outside 0x01 to 0x07. -/
theorem decodeOp_eq_error_iff {op o : Byte} :
    decodeOp op = .error (.reservedOp o) ↔ o = op ∧ (op.toNat = 0 ∨ 8 ≤ op.toNat) := by
  by_cases h : op.toNat = 0 ∨ 8 ≤ op.toNat
  · rw [decodeOp_reserved h, and_iff_left h, Except.error.injEq, IllegalCommand.reservedOp.injEq, eq_comm]
  · obtain ⟨i, hi⟩ := exists_decodeOp (op := op) (by omega) (by omega)
    simp [hi, h]

/-- The words with a given OP are that OP with any 24 bits above it (R300). -/
theorem opField_eq_iff {w : Word} {op : Byte} :
    opField w = op ↔ ∃ hi : BitVec 24, w = op.setWidth 32 ||| (hi.setWidth 32 <<< 8) := by
  constructor
  · rintro rfl
    refine ⟨w.extractLsb' 8 24, BitVec.eq_of_getLsbD_eq fun j hj => ?_⟩
    by_cases h : j < 8
    · simp [opField, h, hj]
    · simp [opField, h, hj, show 8 + (j - 8) = j by omega, show j - 8 < 24 by omega]
  · rintro ⟨hi, rfl⟩
    refine BitVec.eq_of_getLsbD_eq fun j hj => ?_
    simp [opField, hj, show j < 32 by omega]

/-- Settles O2, from the opcode map read and written, with any bits above the OP. -/
theorem decodeAgreesWithEncode : Obligations.DecodeAgreesWithEncode := by
  unfold Obligations.DecodeAgreesWithEncode
  refine ⟨fun w i => decodeOp_eq_ok_iff.trans opField_eq_iff, fun w op => decodeOp_eq_error_iff.trans ?_⟩
  rw [← toNat_opField]
  constructor
  · rintro ⟨rfl, h⟩
    exact ⟨rfl, h⟩
  · rintro ⟨hop, h⟩
    exact ⟨BitVec.eq_of_toNat_eq hop, hop ▸ h⟩

/-- Settles O1: each word is one case of the decoder. -/
theorem sampleCommandWordsDecode : Obligations.SampleCommandWordsDecode := by
  unfold Obligations.SampleCommandWordsDecode
  decide

/-! ### The issue step of a SET command -/

theorem exec_set {i : Instr} {q : Quantity} (hq : opQuantity (opcode i) = some q) (s : State) :
    exec i s = .next (execSet q (prepareIssue (opcode i) s)) := by
  cases i <;> cases hq <;> rfl

theorem inRange_iff (q : Quantity) (a : Int) : inRange q a = true ↔ 0 ≤ a ∧ a ≤ quantityHi q := by
  have hlo : quantityLo q = 0 := by cases q <;> rfl
  simp [inRange, hlo]

theorem inRange_eq_false_iff (q : Quantity) (a : Int) : inRange q a = false ↔ a < 0 ∨ quantityHi q < a := by
  rw [← Bool.not_eq_true, inRange_iff]
  omega

section
variable {i : Instr} {q : Quantity} {s : State}

/-- A SET command with its operand in range and the session open starts a transaction with its frame (R482, R563). -/
theorem exec_set_starts (hq : opQuantity (opcode i) = some q) (hen : s.ctrl.en = true)
    (hr : inRange q (sint32 s.arg) = true) :
    exec i s = .next
      (startTransaction (buildWrite s.params s.devaddr (quantityAddr q) s.arg) (prepareIssue (opcode i) s)) := by
  simp [exec_set hq, execSet, hr, hen]

theorem exec_set_out_of_range (hq : opQuantity (opcode i) = some q) (hr : inRange q (sint32 s.arg) = false) :
    exec i s = .next (finish .invalidInput (prepareIssue (opcode i) s)) := by
  simp [exec_set hq, execSet, hr]

theorem exec_set_closed (hq : opQuantity (opcode i) = some q) (hen : s.ctrl.en = false)
    (hr : inRange q (sint32 s.arg) = true) :
    exec i s = .next (finish .closed (prepareIssue (opcode i) s)) := by
  simp [exec_set hq, execSet, hr, hen]

end

/-- The frame of a transaction reads back from TXBUF, and what lies above it stays (R563). -/
theorem read_writeBytes_frame (m : Memory) (f : List Byte) :
    (∀ j, (h : j < f.length) → Memory.read (Memory.writeBytes m 0 f) j = some f[j]) ∧
      ∀ j, f.length ≤ j → Memory.read (Memory.writeBytes m 0 f) j = Memory.read m j := by
  refine ⟨fun j h => ?_, fun j h => Memory.read_writeBytes_above m 0 j f (by omega)⟩
  simpa using Memory.read_writeBytes m 0 j f h

/-- The rows of R480 and R481 as the obligations list them: a SET command, its OP, its device register and its upper
bound. -/
def setRows : List (Instr × Byte × Half × Int) :=
  [(.setPowerState, 0x01#8, 0x010E#16, 1), (.setMode, 0x02#8, 0x0110#16, 3), (.setVoltage, 0x03#8, 0x0112#16, 150000),
    (.setCurrent, 0x04#8, 0x0116#16, 30000), (.setResistance, 0x05#8, 0x011A#16, 80000),
    (.setPower, 0x06#8, 0x011E#16, 2500)]

/-- Each row is what the model's own tables give for the quantity of the command. -/
theorem setRow_eq {i : Instr} {op : Byte} {ra : Half} {hi : Int} (h : (i, op, ra, hi) ∈ setRows) :
    op = opcode i ∧ ∃ q, opQuantity (opcode i) = some q ∧ ra = quantityAddr q ∧ hi = quantityHi q := by
  simp only [setRows, List.mem_cons, Prod.mk.injEq, List.not_mem_nil, or_false] at h
  rcases h with ⟨rfl, rfl, rfl, rfl⟩ | ⟨rfl, rfl, rfl, rfl⟩ | ⟨rfl, rfl, rfl, rfl⟩ | ⟨rfl, rfl, rfl, rfl⟩ |
    ⟨rfl, rfl, rfl, rfl⟩ | ⟨rfl, rfl, rfl, rfl⟩ <;> exact ⟨rfl, _, rfl, rfl, rfl⟩

/-- Settles O19: the operand is in range and the session open, so the transaction starts, with the frame of R320. -/
theorem setCommandsStartTheirTransaction : Obligations.SetCommandsStartTheirTransaction := by
  unfold Obligations.SetCommandsStartTheirTransaction
  intro i op ra hi hrow s _ hen hlo hhi
  obtain ⟨rfl, q, hq, rfl, rfl⟩ := setRow_eq hrow
  exact ⟨exec_set_starts hq hen ((inRange_iff q _).2 ⟨hlo, hhi⟩), read_writeBytes_frame s.txbuf _⟩

/-- Settles O20: the range is checked before the session, and either refusal finishes at once. -/
theorem setCommandsRefusedWithoutIo : Obligations.SetCommandsRefusedWithoutIo := by
  unfold Obligations.SetCommandsRefusedWithoutIo
  intro i op hi hrow s _
  obtain ⟨⟨i, op, ra, hi⟩, hmem, ⟨⟩⟩ := List.mem_map.1 (show _ ∈ setRows.map fun r => (r.1, r.2.1, r.2.2.2) from hrow)
  obtain ⟨rfl, q, hq, -, rfl⟩ := setRow_eq hmem
  refine ⟨fun hout => ?outOfRange, fun hlo hhi hen => ?closed⟩
  case outOfRange => exact exec_set_out_of_range hq ((inRange_eq_false_iff q _).2 hout)
  case closed => exact exec_set_closed hq hen ((inRange_iff q _).2 ⟨hlo, hhi⟩)

/-! ### The issue step of GET_MEASUREMENTS -/

/-- Settles O21: with the session open the read frame of R321 starts its transaction. -/
theorem getMeasurementsStartsItsTransaction : Obligations.GetMeasurementsStartsItsTransaction := by
  unfold Obligations.GetMeasurementsStartsItsTransaction
  intro s _ hen
  have hstart : exec .getMeasurements s = .next
      (startTransaction (buildRead s.params s.devaddr) (prepareIssue (opcode .getMeasurements) s)) := by
    simp [exec, execGetMeasurements, execGet, hen]
  exact ⟨hstart, read_writeBytes_frame s.txbuf _⟩

/-- Settles O22: with the session closed the measurement is cleared and the command finishes at once. -/
theorem getMeasurementsClosedClearsMeasurement : Obligations.GetMeasurementsClosedClearsMeasurement := by
  unfold Obligations.GetMeasurementsClosedClearsMeasurement
  intro s _ hen
  have hclosed : exec .getMeasurements s =
      .next (finish .closed (clearMeas (prepareIssue (opcode .getMeasurements) s))) := by
    simp [exec, execGetMeasurements, execGet, hen]
  exact hclosed

end Sys2Proof.Machine

/-! SUPPORT. A step of the whole machine (44_channel_io.md R560, 20_memory.md R200 to R204): what it leaves outside the
block, and the access that its host line makes, with the obligations these settle. -/

namespace Sys2Proof.Machine

/-! ### The step as a reset or a host access -/

theorem step_of_no_reset {s : State} (hr : (wiresNow s).rst = false) :
    step s = hostAccess (hostPortNow s) (beforeHost s) := by
  simp [step, cycle, hr]

/-- Settles O41: a reset step and a host access both answer a state. -/
theorem stepAlwaysHasNextState : Obligations.StepAlwaysHasNextState := by
  unfold Obligations.StepAlwaysHasNextState
  intro s
  cases hr : (wiresNow s).rst with
  | true =>
    obtain ⟨_, h⟩ := step_of_reset hr
    exact ⟨_, h⟩
  | false =>
    rw [step_of_no_reset hr]
    exact hostAccess_next _ _

theorem beforeHost_eq (s : State) : beforeHost s = { afterBlock s with hostProgram := (beforeHost s).hostProgram } :=
  retireLine_frame _

@[simp] theorem afterBlock_now (s : State) : (afterBlock s).now = s.now + 1 := by
  cases hr : (wiresNow s).rst with
  | true => rw [afterBlock_reset s hr]; rfl
  | false => rw [afterBlock_no_reset s hr, blockPhases_now, startStep_now]

@[simp] theorem afterBlock_wires (s : State) : (afterBlock s).wires = s.wires.tail := by
  cases hr : (wiresNow s).rst with
  | true => rw [afterBlock_reset s hr]; rfl
  | false => rw [afterBlock_no_reset s hr, blockPhases_wires, startStep_wires]

@[simp] theorem afterBlock_out (s : State) :
    (afterBlock s).out = { s.out with txValid := txValid s, txData := txData s } := by
  cases hr : (wiresNow s).rst with
  | true => rw [afterBlock_reset s hr]; rfl
  | false => rw [afterBlock_no_reset s hr, blockPhases_out, startStep_out]

@[simp] theorem beforeHost_now (s : State) : (beforeHost s).now = s.now + 1 := by
  rw [beforeHost_eq, afterBlock_now]

/-- Settles O18, by the port's `h_req` and `h_we`; each kind of line drives the port with its own values. -/
theorem hostAccessIsOneReadOrWrite : Obligations.HostAccessIsOneReadOrWrite := by
  unfold Obligations.HostAccessIsOneReadOrWrite
  intro s
  have hport (l : HostLine) (ls : List HostLine) (hp : s.hostProgram = l :: ls) : hostPortNow s = hostLinePort l := by
    simp [hostPortNow, hp]
  refine ⟨?none, fun hr hreq hwe => ?read, fun hr hreq hwe => ?write, beforeHost_eq s,
    fun idx v ls hp => hport _ ls hp, fun idx ls hp => ?_, fun ls hp => ?_, fun ls hp => ?_⟩
  case none =>
    rintro (hr | hreq)
    · simp [step, cycle, hr, setReadData]
    · cases hr : (wiresNow s).rst <;> simp [step, cycle, hr, hostAccess, hreq, setReadData]
  case read => simp [step_of_no_reset hr, hostAccess, hreq, hwe, setReadData]
  case write => simp [step_of_no_reset hr, hostAccess, hreq, hwe, setReadData]
  all_goals
    rw [hport _ ls hp]
    simp [hostLinePort, hostIdx]

/-! ### What the host's access leaves alone -/

/-- A command's issue touches neither the inputs nor the outputs. -/
theorem exec_outside {i : Instr} {s t : State} (h : exec i s = .next t) :
    t.wires = s.wires ∧ t.hostProgram = s.hostProgram ∧ t.out = s.out := by
  rcases exec_cases i s t h with ⟨_, _, _, rfl⟩ | ⟨_, _, rfl⟩ | ⟨_, _, _, _, rfl⟩ | ⟨_, _, rfl⟩
  all_goals exact ⟨rfl, rfl, rfl⟩

/-- A host access drives `h_rdata` and touches neither the other outputs nor the inputs. -/
theorem hostAccess_outside {p : HostPort} {s t : State} (h : hostAccess p s = .next t) :
    t.wires = s.wires ∧ t.hostProgram = s.hostProgram ∧ ∃ v, t.out = { s.out with hRdata := v } := by
  rcases hostAccess_cases p s t h with ⟨_, rfl⟩ | ⟨_, _, rfl⟩ | ⟨_, _, u, rfl, hw⟩
  · exact ⟨rfl, rfl, _, rfl⟩
  · exact ⟨rfl, rfl, _, rfl⟩
  · rcases hw with ⟨_, _, _, _, rfl⟩ | ⟨_, rfl⟩ | ⟨_, ht⟩ | ⟨_, _, i, _, he⟩ | ⟨_, _, op, _, rfl⟩
    · exact ⟨rfl, rfl, _, rfl⟩
    · exact ⟨rfl, rfl, _, rfl⟩
    · rw [ht]; exact ⟨rfl, rfl, _, rfl⟩
    · obtain ⟨hwires, hlines, hout⟩ := exec_outside he
      exact ⟨hwires, hlines, _, hout⟩
    · exact ⟨rfl, rfl, _, rfl⟩

/-- A step takes one pending input, retires the host's line, and drives the outputs of its start (R102). -/
theorem step_outside {s t : State} (h : step s = .next t) :
    t.wires = s.wires.tail ∧ t.hostProgram = (beforeHost s).hostProgram ∧ t.out.txValid = txValid s ∧
      t.out.txData = txData s := by
  cases hr : (wiresNow s).rst with
  | true =>
    obtain rfl : setReadData 0#32 (beforeHost s) = t := by simpa [step, cycle, hr] using h
    rw [beforeHost_eq]
    simp
  | false =>
    rw [step_of_no_reset hr] at h
    obtain ⟨hwires, hlines, v, hout⟩ := hostAccess_outside h
    rw [hwires, hlines, hout, beforeHost_eq]
    simp

/-- Settles O29: the outputs of a step are those of its start, and these follow PHASE. -/
theorem outputsShowTheStateAtTheStart : Obligations.OutputsShowTheStateAtTheStart := by
  unfold Obligations.OutputsShowTheStateAtTheStart
  intro s t h
  obtain ⟨_, _, hvalid, hdata⟩ := step_outside h
  rw [hvalid, hdata]
  exact ⟨fun hp => by simp [txValid, txData, hp], fun hp => by simp [txValid, txData, hp]⟩

/-! ### A step with a CMD write -/

/-- Settles O25: the access of the line is an accepted CMD write, which issues the command; while IDLE the phases do
nothing. -/
theorem stepRunsDecodedCommand : Obligations.StepRunsDecodedCommand := by
  unfold Obligations.StepRunsDecodedCommand
  intro s v i ls hr hp hb hd
  refine ⟨?exec, fun hphase hcapture => ?phases⟩
  case exec =>
    have hstep : step s = hostWrite (hostIdx .cmd) v
        (setReadData (Config.freeReadData (afterBlock s).now) { afterBlock s with hostProgram := ls }) :=
      step_of_line hr hp nofun
    rw [hstep, afterBlock_now, hostWrite_free .cmd (by exact hb)]
    exact issue_ok hd _
  case phases =>
    rw [afterBlock_no_reset s hr, blockPhases_idle _ (startStep s) hphase hcapture]
    simp [startStep, txValid, txData, hphase]

theorem decode_of_decodeTableWord {nbits w : Nat} {i : Instr} (h : decodeTableWord nbits w = some i) :
    decode (BitVec.ofNat 32 (w % 2 ^ nbits)) = .ok i := by
  unfold decodeTableWord at h
  split at h
  · cases h
    assumption
  · cases h

/-- Settles O26: the command is placed on a block between transactions, so its step is that of O25. -/
theorem fetchedCommandRunsNext : Obligations.FetchedCommandRunsNext := by
  unfold Obligations.FetchedCommandRunsNext
  intro s nbits w i hd
  have hphases : afterBlock (s.withFetchWord nbits w) =
      { s.withFetchWord nbits w with
        wires := s.wires, now := s.now + 1, out := { s.out with txValid := false, txData := 0#8 } } := by
    rw [afterBlock_no_reset _ rfl, blockPhases_idle _ (startStep _) rfl rfl]
    rfl
  obtain ⟨hexec, -⟩ := stepRunsDecodedCommand (s.withFetchWord nbits w) _ i s.hostProgram rfl rfl (by rw [hphases]; rfl)
    (decode_of_decodeTableWord hd)
  rw [hexec, hphases]
  rfl

/-! ### A step with a POLL line -/

theorem retireLine_of_poll {s : State} {ls : List HostLine} (hp : s.hostProgram = .poll :: ls) :
    retireLine s = { s with hostProgram := if s.status.busy then .poll :: ls else ls } := by
  cases hb : s.status.busy with
  | false => simp [retireLine, hp, hb]
  | true =>
    have hstays : retireLine s = s := by simp [retireLine, hp, hb]
    rw [hstays, if_pos rfl, ← hp]

/-- A POLL line reads STATUS, and stays as long as BUSY shows (R341). -/
theorem step_of_poll {s : State} {ls : List HostLine} (hr : (wiresNow s).rst = false)
    (hp : s.hostProgram = .poll :: ls) :
    step s = .next (setReadData (hostRead (afterBlock s) 0x7#4)
      { afterBlock s with hostProgram := if (afterBlock s).status.busy then .poll :: ls else ls }) := by
  have hlines : (afterBlock s).hostProgram = .poll :: ls := (afterBlock_hostProgram hr).trans hp
  have hbefore : beforeHost s =
      { afterBlock s with hostProgram := if (afterBlock s).status.busy then .poll :: ls else ls } :=
    retireLine_of_poll hlines
  rw [step_of_no_reset hr, hostPortNow, hp, hbefore]
  rfl

/-- Settles O49, by the kind of line. -/
theorem pollLineWaitsForCompletion : Obligations.PollLineWaitsForCompletion := by
  unfold Obligations.PollLineWaitsForCompletion
  intro s t l ls h hp hr
  refine ⟨fun hl => ?other, ?poll⟩
  case other =>
    rw [step_of_line hr hp hl] at h
    exact (hostAccess_outside h).2.1
  case poll =>
    rintro rfl
    cases h.symm.trans (step_of_poll hr hp)
    exact ⟨rfl, rfl⟩

end Sys2Proof.Machine

/-! SUPPORT. The outcomes of a poll (44_channel_io.md R567 to R569), and which steps may change RESULT, OVR and the
measurement registers (43_read_command.md R534, 60_exceptions.md R631, R634), with the obligations these settle. -/

namespace Sys2Proof.Machine

/-! ### The poll -/

theorem waitTick_counts {s : State} (ht : 2 ≤ s.timer.toNat) : waitTick s = { s with timer := s.timer - 1#32 } := by
  rcases waitTick_cases s with ⟨_, h⟩ | ⟨hle, _⟩
  · exact h
  · omega

theorem waitTick_polls {s : State} (ht : s.timer.toNat ≤ 1) : waitTick s = poll { s with timer := 0#32 } := by
  rcases waitTick_cases s with ⟨hge, _⟩ | ⟨_, h⟩
  · omega
  · exact h

theorem poll_quiet {s : State} (hq : quietPoll s = true) : poll s = terminate s := by simp [poll, hq]

theorem poll_expires {s : State} (hq : quietPoll s = false) (hm : s.maxgap ≠ 0#32) (hg : s.gaps = s.maxgap) :
    poll s = terminate { s with status := { s.status with expired := true } } := by
  rw [poll, hq, if_neg Bool.false_ne_true, if_pos ⟨hm, hg⟩]

theorem poll_pauses {s : State} (hq : quietPoll s = false) (h : s.maxgap = 0#32 ∨ s.gaps ≠ s.maxgap) :
    poll s = { s with mark := s.rxlen, gaps := s.gaps + 1#32, timer := s.gap, lost := false } := by
  rw [poll, hq, if_neg Bool.false_ne_true, if_neg (by tauto)]

theorem quietPoll_iff (s : State) : quietPoll s = true ↔ s.rxlen = s.mark ∧ s.lost = false := by
  simp [quietPoll]

theorem quietPoll_eq_false_iff (s : State) : quietPoll s = false ↔ s.rxlen ≠ s.mark ∨ s.lost = true := by
  rw [← Bool.not_eq_true, quietPoll_iff, not_and_or, Bool.not_eq_false]

/-- Settles O30, by the timer and the outcome of the poll. -/
theorem waitCountsDownAndPolls : Obligations.WaitCountsDownAndPolls := by
  unfold Obligations.WaitCountsDownAndPolls
  intro rdy s hp
  rw [advance_wait rdy s hp]
  refine ⟨waitTick_counts, fun ht hq => ?quiet, fun ht hq hm hg => ?expires, fun ht hq hmore => ?pauses⟩
  case quiet => exact (waitTick_polls ht).trans (poll_quiet ((quietPoll_iff _).2 hq))
  all_goals
    have hq' : quietPoll { s with timer := 0#32 } = false := Bool.eq_false_iff.2 (mt (quietPoll_iff _).1 hq)
  case expires => exact (waitTick_polls ht).trans (poll_expires hq' hm hg)
  case pauses => exact (waitTick_polls ht).trans (poll_pauses hq' hmore)

/-! ### What the block's phases change -/

@[simp] theorem received_maxgap (s : State) : (received s).maxgap = s.maxgap := by rw [received, receive_frame]; rfl
@[simp] theorem received_meas (s : State) : (received s).meas = s.meas := by rw [received, receive_frame]; rfl
@[simp] theorem received_measV (s : State) : (received s).measV = s.measV := by rw [received, receive_frame]; rfl
@[simp] theorem received_measI (s : State) : (received s).measI = s.measI := by rw [received, receive_frame]; rfl
@[simp] theorem received_txbuf (s : State) : (received s).txbuf = s.txbuf := by rw [received, receive_frame]; rfl

theorem received_status (s : State) :
    (received s).status = { s.status with rxovf := (received s).status.rxovf } := by
  rw [received, receive_frame]; rfl

/-- Advance keeps STATUS and the measurement registers, or it is the termination that a poll comes to (R567 to R572). -/
theorem advance_keeps_status_or_terminates (r : Bool) (s : State) :
    ((advance r s).status = s.status ∧ (advance r s).meas = s.meas ∧ (advance r s).measV = s.measV ∧
      (advance r s).measI = s.measI) ∨
    (s.phase = .wait ∧
      ∃ e, advance r s = terminate { s with timer := 0#32, status := { s.status with expired := e } }) := by
  cases hp : s.phase with
  | idle => simp [advance_idle r s hp]
  | tx =>
    rw [advance_tx r s hp]
    rcases transmit_cases r s with ⟨_, h⟩ | ⟨_, _, h⟩ | ⟨_, _, h⟩ <;> simp [h]
  | wait =>
    rw [advance_wait r s hp]
    rcases waitTick_cases s with ⟨_, h⟩ | ⟨_, h⟩
    · simp [h]
    · rcases poll_cases { s with timer := 0#32 } with ⟨_, hq⟩ | ⟨_, _, _, hq⟩ | ⟨_, _, hq⟩
      · exact .inr ⟨rfl, s.status.expired, h.trans hq⟩
      · exact .inr ⟨rfl, true, h.trans hq⟩
      · simp [h, hq]

/-- A step's phases keep the measurement registers and STATUS, RXOVF apart, or they terminate a transaction. -/
theorem afterBlock_keeps_status_or_terminates {s : State} (hr : (wiresNow s).rst = false) :
    ((∃ o, (afterBlock s).status = { s.status with rxovf := o }) ∧ (afterBlock s).meas = s.meas ∧
      (afterBlock s).measV = s.measV ∧ (afterBlock s).measI = s.measI) ∨
    (s.phase = .wait ∧ ∃ o e, afterBlock s =
      terminate { received s with timer := 0#32, status := { s.status with rxovf := o, expired := e } }) := by
  rw [afterBlock_eq_advance hr]
  rcases advance_keeps_status_or_terminates (wiresNow s).txReady (received s) with ⟨hst, hm, hmv, hmi⟩ | ⟨hp, e, h⟩
  · refine .inl ⟨⟨_, hst.trans (received_status s)⟩, ?_⟩
    simp [hm, hmv, hmi]
  · rw [received_status] at h
    exact .inr ⟨by simpa using hp, _, e, h⟩

/-- A termination sets BUSY, DONE and RESULT, and no other field of STATUS. -/
theorem terminate_status (s : State) :
    (terminate s).status = { s.status with busy := false, done := true, result := (terminate s).status.result } :=
  congrArg State.status (terminate_frame s)

/-- Only a host access sets OVR (R634). -/
theorem afterBlock_ovr {s : State} (hr : (wiresNow s).rst = false) : (afterBlock s).status.ovr = s.status.ovr := by
  rcases afterBlock_keeps_status_or_terminates hr with ⟨⟨o, h⟩, _⟩ | ⟨_, o, e, h⟩
  · rw [h]
  · rw [h, terminate_status]

/-- The block's phases start no transaction. -/
theorem afterBlock_free {s : State} (hb : s.status.busy = false) : (afterBlock s).status.busy = false := by
  cases hr : (wiresNow s).rst with
  | true => rw [afterBlock_reset s hr]; rfl
  | false =>
    rcases afterBlock_keeps_status_or_terminates hr with ⟨⟨o, h⟩, _⟩ | ⟨_, o, e, h⟩
    · rw [h]; exact hb
    · rw [h]; exact terminate_busy _

/-! ### The measurement registers -/

theorem opQuantity_eq_none_iff (op : Byte) : opQuantity op = none ↔ ¬ (1 ≤ op.toNat ∧ op.toNat ≤ 6) := by
  constructor
  · rintro h ⟨hlo, hhi⟩
    obtain ⟨q, hq⟩ := exists_opQuantity hlo hhi
    simp [h] at hq
  · intro h
    unfold opQuantity
    split
    case h_7 => rfl
    all_goals omega

/-- A running transaction whose LASTOP is no SET command is a GET_MEASUREMENTS (R310, R580). -/
theorem Inv.lastop_eq_get {s : State} (h : Inv s) (hb : s.status.busy = true) (hq : opQuantity s.status.lastop = none) :
    s.status.lastop = 0x07#8 := by
  obtain ⟨_, hlo, hhi⟩ := h.busyOpen hb
  have hset := (opQuantity_eq_none_iff _).1 hq
  exact BitVec.eq_of_toNat_eq (show s.status.lastop.toNat = 7 by omega)

/-- In the block's phases the measurement registers change only when a GET_MEASUREMENTS terminates. -/
theorem afterBlock_meas {s : State} (hinv : Inv s) (hr : (wiresNow s).rst = false) :
    ((afterBlock s).meas = s.meas ∧ (afterBlock s).measV = s.measV ∧ (afterBlock s).measI = s.measI) ∨
      (s.phase = .wait ∧ s.status.lastop = 0x07#8 ∧ (afterBlock s).phase = .idle) := by
  rcases afterBlock_keeps_status_or_terminates hr with ⟨_, h⟩ | ⟨hp, o, e, h⟩
  · exact .inl h
  · rw [h]
    cases hq : opQuantity s.status.lastop with
    | some q =>
      obtain ⟨hm, hmv, hmi⟩ := terminate_write_meas
        { received s with timer := 0#32, status := { s.status with rxovf := o, expired := e } } q hq
      exact .inl ⟨hm.trans (received_meas s), hmv.trans (received_measV s), hmi.trans (received_measI s)⟩
    | none => exact .inr ⟨hp, hinv.lastop_eq_get (hinv.busyPhase.2 (by simp [hp])) hq, terminate_phase _⟩

/-- A host access changes the measurement registers only by a GET_MEASUREMENTS in a closed session (R530). -/
theorem hostAccess_meas {p : HostPort} {s t : State} (h : hostAccess p s = .next t) :
    (t.meas = s.meas ∧ t.measV = s.measV ∧ t.measI = s.measI) ∨
      (p.req = true ∧ p.we = true ∧ p.idx = hostIdx .cmd ∧ decode p.wdata = .ok .getMeasurements ∧
        s.ctrl.en = false ∧ t.status.result = .closed) := by
  rcases hostAccess_cases p s t h with ⟨_, rfl⟩ | ⟨_, _, rfl⟩ | ⟨hreq, hwe, u, rfl, hw⟩
  · exact .inl ⟨rfl, rfl, rfl⟩
  · exact .inl ⟨rfl, rfl, rfl⟩
  · rcases hw with ⟨_, _, _, _, rfl⟩ | ⟨_, rfl⟩ | ⟨_, ht⟩ | ⟨hidx, _, i, hd, he⟩ | ⟨_, _, op, _, rfl⟩
    · exact .inl ⟨rfl, rfl, rfl⟩
    · exact .inl ⟨rfl, rfl, rfl⟩
    · rw [ht]; exact .inl ⟨rfl, rfl, rfl⟩
    · rcases exec_cases i _ t he with ⟨_, _, _, rfl⟩ | ⟨rfl, hen, rfl⟩ | ⟨_, _, _, _, rfl⟩ | ⟨_, _, rfl⟩
      · exact .inl ⟨rfl, rfl, rfl⟩
      · exact .inr ⟨hreq, hwe, (hostRegAt_eq_some_iff _ _).1 hidx, hd, hen, rfl⟩
      · exact .inl ⟨rfl, rfl, rfl⟩
      · exact .inl ⟨rfl, rfl, rfl⟩
    · exact .inl ⟨rfl, rfl, rfl⟩

/-- Settles O44: a change is the block's, by a termination, or the host's, by a GET_MEASUREMENTS in a closed session. -/
theorem measurementsChangeOnlyOnGet : Obligations.MeasurementsChangeOnlyOnGet := by
  unfold Obligations.MeasurementsChangeOnlyOnGet
  intro s t hinv h hr hchanged
  obtain ⟨ls, ha⟩ := hostAccess_of_step h hr
  rcases hostAccess_meas ha with ⟨hm, hmv, hmi⟩ | ⟨hreq, hwe, hidx, hd, hen, hres⟩
  · refine .inl ((afterBlock_meas hinv hr).resolve_left ?_)
    rw [hm, hmv, hmi] at hchanged
    tauto
  · refine .inr ⟨hreq, hwe, hidx, hd, ?_, hres⟩
    simpa [afterBlock_no_reset s hr] using hen

/-! ### RESULT -/

/-- A host access changes RESULT only by a CMD write that completes at once (R564, R631). -/
theorem hostAccess_result {p : HostPort} {s t : State} (h : hostAccess p s = .next t) :
    t.status.result = s.status.result ∨
      (p.req = true ∧ p.we = true ∧ p.idx = hostIdx .cmd ∧ t.status.busy = false ∧ t.status.done = true ∧
        t.status.lastop = opField p.wdata ∧
        (t.status.result = .invalidCmd ∨ t.status.result = .invalidInput ∨ t.status.result = .closed)) := by
  rcases hostAccess_cases p s t h with ⟨_, rfl⟩ | ⟨_, _, rfl⟩ | ⟨hreq, hwe, u, rfl, hw⟩
  · exact .inl rfl
  · exact .inl rfl
  · rcases hw with ⟨_, _, _, _, rfl⟩ | ⟨_, rfl⟩ | ⟨_, ht⟩ | ⟨hidx, hb, i, hd, he⟩ | ⟨hidx, hb, op, hd, rfl⟩
    · exact .inl rfl
    · exact .inl rfl
    · rw [ht]; exact .inl rfl
    · have hop : opField p.wdata = opcode i := decodeOp_eq_ok_iff.1 hd
      have hcmd := (hostRegAt_eq_some_iff _ _).1 hidx
      rcases exec_cases i _ t he with ⟨c, hc, _, rfl⟩ | ⟨_, _, rfl⟩ | ⟨_, _, _, _, rfl⟩ | ⟨_, _, rfl⟩
      · exact .inr ⟨hreq, hwe, hcmd, hb, rfl, hop.symm, .inr hc⟩
      · exact .inr ⟨hreq, hwe, hcmd, hb, rfl, hop.symm, .inr (.inr rfl)⟩
      · exact .inl rfl
      · exact .inl rfl
    · obtain ⟨hop, _⟩ := decodeOp_eq_error_iff.1 hd
      exact .inr ⟨hreq, hwe, (hostRegAt_eq_some_iff _ _).1 hidx, hb, rfl, hop, .inl rfl⟩

/-- Settles O45: the block's phases write RESULT by a termination, the host's access by a completion at issue. -/
theorem resultIsWrittenWithDone : Obligations.ResultIsWrittenWithDone := by
  unfold Obligations.ResultIsWrittenWithDone
  intro s t hinv h hr
  refine ⟨fun hchanged => ?block, fun hchanged => ?host⟩
  case block =>
    rcases afterBlock_keeps_status_or_terminates hr with ⟨⟨o, hkept⟩, _⟩ | ⟨hp, o, e, hend⟩
    · simp [hkept] at hchanged
    · rw [hend]
      refine ⟨hinv.busyPhase.2 (by simp [hp]), terminate_busy _, terminate_done _, ?_, terminate_result _⟩
      rw [terminate_status]
  case host =>
    obtain ⟨ls, ha⟩ := hostAccess_of_step h hr
    exact (hostAccess_result ha).resolve_left hchanged

/-! ### OVR -/

/-- A host access sets OVR only by a write that the BUSY rule refuses (R204). -/
theorem hostAccess_ovr {p : HostPort} {s t : State} (h : hostAccess p s = .next t) (hs : s.status.ovr = false)
    (ht : t.status.ovr = true) :
    p.req = true ∧ p.we = true ∧ s.status.busy = true ∧ ∃ r, hostRegAt p.idx = some r ∧ guardedReg r = true := by
  rcases hostAccess_cases p s t h with ⟨_, rfl⟩ | ⟨_, _, rfl⟩ | ⟨hreq, hwe, u, rfl, hw⟩
  · simp [hs] at ht
  · simp [hs] at ht
  · rcases hw with ⟨r, hidx, hg, hb, _⟩ | ⟨_, rfl⟩ | ⟨_, e⟩ | ⟨_, _, i, _, he⟩ | ⟨_, _, op, _, rfl⟩
    · exact ⟨hreq, hwe, hb, r, hidx, hg⟩
    · simp [hs] at ht
    · rw [e] at ht; simp [hs] at ht
    · rcases exec_cases i _ t he with ⟨_, _, _, rfl⟩ | ⟨_, _, rfl⟩ | ⟨_, _, _, _, rfl⟩ | ⟨_, _, rfl⟩ <;> cases ht
    · cases ht

/-- Settles O47: no reset and no phase sets OVR, and the write that sets it is the overlapped request. -/
theorem ovrComesFromOverlappedRequest : Obligations.OvrComesFromOverlappedRequest := by
  unfold Obligations.OvrComesFromOverlappedRequest
  intro s t h hs ht
  cases hr : (wiresNow s).rst with
  | true =>
    obtain ⟨ls, hreset⟩ := step_of_reset hr
    cases h.symm.trans hreset
    cases ht
  | false =>
    rw [step_of_no_reset hr] at h
    have hbefore : (beforeHost s).status.ovr = false := by rw [beforeHost, retireLine_status, afterBlock_ovr hr, hs]
    obtain ⟨hreq, hwe, hb, r, hidx, hg⟩ := hostAccess_ovr h hbefore ht
    simp [hostFault, hr, hreq, hwe, hb, hidx, hg]

end Sys2Proof.Machine

/-! SUPPORT. Runs of the machine over pending inputs (44_channel_io.md sections 3 and 4): a bounded drain ends (R577), a
chattering line keeps the block BUSY (R581), and the frame's bytes leave in order (R565), with the obligations these
settle. -/

namespace Sys2Proof.Machine

/-! ### Runs over pending inputs -/

/-- The inputs `ws` are pending, and none of them resets the block. -/
def Pending (s : State) (ws : List Wires) : Prop := ws <+: s.wires ∧ ∀ w ∈ ws, w.rst = false

section
variable {s : State} {w : Wires} {ws : List Wires} (h : Pending s (w :: ws))
include h

theorem Pending.wiresNow_eq : wiresNow s = w := by
  obtain ⟨⟨later, hw⟩, _⟩ := h
  simp [wiresNow, ← hw]

theorem Pending.no_reset : (wiresNow s).rst = false := by
  rw [h.wiresNow_eq]
  exact h.2 w List.mem_cons_self

theorem Pending.tail {t : State} (ht : t.wires = s.wires.tail) : Pending t ws := by
  obtain ⟨⟨later, hw⟩, hr⟩ := h
  exact ⟨⟨later, by simp [ht, ← hw]⟩, fun x hx => hr x (List.mem_cons_of_mem _ hx)⟩

end

/-- What every step keeps as it takes the first of the inputs `ws` holds, after them, with none of them left. -/
theorem run_of_step {P : State → List Wires → Prop}
    (hstep : ∀ s w ws, P s (w :: ws) → ∃ t, step s = .next t ∧ P t ws) {s : State} {ws : List Wires} (h : P s ws) :
    ∃ t : State, Sys2Proof.core.run ws.length s = .next t ∧ P t [] := by
  induction ws generalizing s with
  | nil => exact ⟨s, rfl, h⟩
  | cons w ws ih =>
    obtain ⟨u, hu, hP⟩ := hstep s w ws h
    obtain ⟨t, ht, hP'⟩ := ih hP
    exact ⟨t, (run_succ _ _ _ hu).trans ht, hP'⟩

/-! ### A bounded drain -/

/-- A transaction waits in a drain that MAXGAP bounds (R571, R577). -/
structure Draining (s : State) : Prop where
  busy : s.status.busy = true
  phase : s.phase = .wait
  bounded : s.maxgap ≠ 0#32
  gaps : s.gaps.toNat ≤ s.maxgap.toNat

/-- How many steps the drain still has: to the next poll, and through the pauses that MAXGAP leaves (R577). -/
def drainBound (s : State) : Nat := max s.timer.toNat 1 + (s.maxgap.toNat - s.gaps.toNat) * max s.gap.toNat 1

/-- A poll that is due ends the transaction, or MAXGAP leaves it another pause (R568, R569). -/
theorem afterBlock_ends_or_pauses {s : State} (hr : (wiresNow s).rst = false) (hp : s.phase = .wait)
    (ht : s.timer.toNat ≤ 1) :
    (afterBlock s).phase = .idle ∨
      ((s.maxgap = 0#32 ∨ s.gaps ≠ s.maxgap) ∧ afterBlock s =
        { received s with mark := (received s).rxlen, gaps := s.gaps + 1#32, timer := s.gap, lost := false }) := by
  rw [afterBlock_poll hr hp ht]
  rcases poll_cases { received s with timer := 0#32 } with ⟨_, h⟩ | ⟨_, _, _, h⟩ | ⟨_, hmore, h⟩
  · exact .inl (by rw [h]; exact terminate_phase _)
  · exact .inl (by rw [h]; exact terminate_phase _)
  · exact .inr ⟨by simpa using hmore, by rw [h]; simp⟩

/-- A step of the drain ends it or comes closer to its bound. -/
theorem draining_step {s : State} (h : Draining s) (hgo : (afterBlock s).phase ≠ .idle) :
    ∃ t, step s = .next t ∧ Draining t ∧ drainBound t < drainBound s := by
  obtain ⟨hb, hp, hm, hg⟩ := h
  have hr : (wiresNow s).rst = false := by
    by_contra hr
    exact hgo (by rw [afterBlock_reset s (by simpa using hr)]; rfl)
  by_cases ht : 2 ≤ s.timer.toNat
  · have hblock := afterBlock_wait hr hp ht
    obtain ⟨ls, ovr, v, hstep⟩ := step_of_busy hr (by simp [hblock, hb])
    refine ⟨_, hstep, ⟨by simp [hblock, hb], by simp [hblock, hp], by simp [hblock, hm], by simp [hblock, hg]⟩, ?_⟩
    have htimer : (s.timer - 1#32).toNat = s.timer.toNat - 1 := by bv_omega
    simp only [drainBound, hblock, received_maxgap, received_gaps, received_gap, htimer]
    omega
  · obtain ⟨hmore, hblock⟩ := (afterBlock_ends_or_pauses hr hp (by omega)).resolve_left hgo
    obtain ⟨ls, ovr, v, hstep⟩ := step_of_busy hr (by simp [hblock, hb])
    have hlt : s.gaps.toNat < s.maxgap.toNat :=
      lt_of_le_of_ne hg (mt BitVec.eq_of_toNat_eq (hmore.resolve_left hm))
    have hgaps : (s.gaps + 1#32).toNat = s.gaps.toNat + 1 := by bv_omega
    refine ⟨_, hstep, ⟨by simp [hblock, hb], by simp [hblock, hp], by simp [hblock, hm], ?_⟩, ?_⟩
    · simp only [hblock, received_maxgap, hgaps]
      omega
    · simp only [drainBound, hblock, received_maxgap, received_gap, hgaps]
      have hleft : s.maxgap.toNat - s.gaps.toNat = s.maxgap.toNat - (s.gaps.toNat + 1) + 1 := by omega
      rw [hleft, Nat.add_mul]
      omega

theorem drain_ends {s : State} (h : Draining s) :
    ∃ n t, n < drainBound s ∧ Sys2Proof.core.run n s = .next t ∧ (afterBlock t).phase = .idle := by
  induction hN : drainBound s using Nat.strong_induction_on generalizing s with
  | _ N ih =>
    subst hN
    by_cases hend : (afterBlock s).phase = .idle
    · exact ⟨0, s, by unfold drainBound; omega, rfl, hend⟩
    · obtain ⟨u, hstep, hu, hlt⟩ := draining_step h hend
      obtain ⟨n, t, hn, hrun, hidle⟩ := ih _ hlt hu rfl
      exact ⟨n + 1, t, by omega, (run_succ _ _ _ hstep).trans hrun, hidle⟩

/-- Settles O33: from the last handshake the drain's bound is the one stated. -/
theorem boundedDrainEndsInTime : Obligations.BoundedDrainEndsInTime := by
  unfold Obligations.BoundedDrainEndsInTime
  intro s hb hp ht hg hm
  have hbound : drainBound s = max s.settle.toNat 1 + s.maxgap.toNat * max s.gap.toNat 1 := by
    simp [drainBound, ht, hg]
  rw [← hbound]
  exact drain_ends ⟨hb, hp, hm, by simp [hg]⟩

/-! ### A chattering line -/

/-- A poll that is due and hears something pauses, where MAXGAP does not end the drain (R568, R569). -/
theorem afterBlock_pauses {s : State} (hr : (wiresNow s).rst = false) (hp : s.phase = .wait) (ht : s.timer.toNat ≤ 1)
    (hq : quietPoll (received s) = false) (hm : s.maxgap = 0#32 ∨ s.gaps ≠ s.maxgap) :
    afterBlock s =
      { received s with mark := (received s).rxlen, gaps := s.gaps + 1#32, timer := s.gap, lost := false } := by
  rw [afterBlock_poll hr hp ht, poll_pauses (by exact hq) (by simpa using hm)]
  simp

/-- What the next poll hears: a byte since the previous one, captured or lost, or the byte of this step (R568, R581). -/
theorem quietPoll_received {s : State} (hinv : Inv s) (hb : s.status.busy = true)
    (h : quietPoll s = false ∨ (wiresNow s).rxValid = true) : quietPoll (received s) = false := by
  rcases h with h | h
  · exact quietPoll_receive_keep _ _ (startStep s) hinv.mark h
  · rw [received, h]
    exact quietPoll_receive_byte _ (startStep s) (hinv.captureBusy.trans hb) hinv.mark

/-- With MAXGAP = 0 the block stays BUSY if a poll that is due hears something. -/
theorem afterBlock_busy_of_heard {s : State} (hinv : Inv s) (hb : s.status.busy = true) (hr : (wiresNow s).rst = false)
    (hm : s.maxgap = 0#32) (hq : s.phase = .wait → s.timer.toNat ≤ 1 → quietPoll (received s) = false) :
    (afterBlock s).status.busy = true := by
  rcases afterBlock_keeps_transaction_or_terminates hr (hinv.busyPhase.1 hb) with ⟨hbusy, _⟩ | ⟨hp, ht, _⟩
  · exact hbusy.trans hb
  · rw [afterBlock_pauses hr hp ht (hq hp ht) (.inl hm)]
    simp [hb]

/-- A transaction that MAXGAP does not bound, with the inputs `ws` pending. -/
structure Unbounded (s : State) (ws : List Wires) : Prop where
  inv : Inv s
  busy : s.status.busy = true
  maxgap : s.maxgap = 0#32
  pending : Pending s ws

/-- While BUSY a step of the machine leaves what the block's phases leave, as far as the drain reads it. -/
theorem Unbounded.step {s : State} {w : Wires} {ws : List Wires} (h : Unbounded s (w :: ws))
    (hb : (afterBlock s).status.busy = true) :
    ∃ t, step s = .next t ∧ Unbounded t ws ∧ t.phase = (afterBlock s).phase ∧ t.timer = (afterBlock s).timer ∧
      t.gap = s.gap ∧ quietPoll t = quietPoll (afterBlock s) := by
  have hr := h.pending.no_reset
  obtain ⟨ls, ovr, v, hstep⟩ := step_of_busy hr hb
  refine ⟨_, hstep, ⟨inv_step h.inv hstep, hb, ?_, h.pending.tail (step_outside hstep).1⟩, rfl, rfl, ?_, rfl⟩
  · simp [afterBlock_no_reset s hr, h.maxgap]
  · simp [afterBlock_no_reset s hr]

/-- With a byte in every step the block stays BUSY (R581). -/
theorem byte_step {s : State} {w : Wires} {ws : List Wires} (h : Unbounded s (w :: ws))
    (hv : ∀ x ∈ w :: ws, x.rxValid = true) :
    ∃ t, step s = .next t ∧ Unbounded t ws ∧ ∀ x ∈ ws, x.rxValid = true := by
  have hbyte : (wiresNow s).rxValid = true := by
    rw [h.pending.wiresNow_eq]
    exact hv w List.mem_cons_self
  obtain ⟨t, hstep, hu, _⟩ := h.step (afterBlock_busy_of_heard h.inv h.busy h.pending.no_reset h.maxgap
    fun _ _ => quietPoll_received h.inv h.busy (.inr hbyte))
  exact ⟨t, hstep, hu, fun x hx => hv x (List.mem_cons_of_mem _ hx)⟩

/-- When bytes arrive on a line: one before the poll that is `first` steps away, unless one was heard already, and one
in every pause after it (R581). -/
def Chatters (heard : Prop) (first pause : Nat) (ws : List Wires) : Prop :=
  (first ≤ ws.length → heard ∨ ∃ w ∈ ws.take first, w.rxValid = true) ∧
  ∀ k, first + (k + 1) * pause ≤ ws.length → ∃ w ∈ (ws.drop (first + k * pause)).take pause, w.rxValid = true

section
variable {heard : Prop} {first pause : Nat} {w : Wires} {ws : List Wires}

/-- A step before the poll: its byte counts as heard. -/
theorem Chatters.wait {heard' : Prop} (h : Chatters heard (first + 1) pause (w :: ws))
    (hheard : heard ∨ w.rxValid = true → heard') : Chatters heard' first pause ws := by
  obtain ⟨hfirst, hpause⟩ := h
  refine ⟨fun hlen => ?_, fun k hlen => ?_⟩
  · rcases hfirst (by simpa using hlen) with hh | ⟨x, hx, hv⟩
    · exact .inl (hheard (.inl hh))
    · rw [List.take_succ_cons, List.mem_cons] at hx
      rcases hx with rfl | hx
      · exact .inl (hheard (.inr hv))
      · exact .inr ⟨x, hx, hv⟩
  · have := hpause k (by simp only [List.length_cons]; omega)
    rwa [Nat.add_right_comm, List.drop_succ_cons] at this

/-- The step of the poll: something was heard by then, and the next poll is a pause away. -/
theorem Chatters.poll (h : Chatters heard 1 pause (w :: ws)) :
    (heard ∨ w.rxValid = true) ∧ ∀ heard', Chatters heard' pause pause ws := by
  obtain ⟨hfirst, hpause⟩ := h
  refine ⟨?_, fun heard' => ⟨fun hlen => .inr ?_, fun k hlen => ?_⟩⟩
  · simpa using hfirst (by simp)
  · have := hpause 0 (by simp only [List.length_cons]; omega)
    rwa [Nat.zero_mul, Nat.add_zero, List.drop_one, List.tail_cons] at this
  · have := hpause (k + 1) (by simp only [List.length_cons, Nat.add_mul] at *; omega)
    rwa [Nat.add_comm 1, List.drop_succ_cons, Nat.add_mul, Nat.one_mul, Nat.add_comm (k * pause)] at this

end

/-- A waiting block whose line chatters on keeps waiting. -/
theorem chattering_step {s : State} {w : Wires} {ws : List Wires} (h : Unbounded s (w :: ws)) (hp : s.phase = .wait)
    (hc : Chatters (quietPoll s = false) (max s.timer.toNat 1) (max s.gap.toNat 1) (w :: ws)) :
    ∃ t, step s = .next t ∧ Unbounded t ws ∧ t.phase = .wait ∧
      Chatters (quietPoll t = false) (max t.timer.toNat 1) (max t.gap.toNat 1) ws := by
  have hr := h.pending.no_reset
  have hheard : quietPoll s = false ∨ w.rxValid = true → quietPoll (received s) = false := by
    rw [← h.pending.wiresNow_eq]
    exact quietPoll_received h.inv h.busy
  by_cases ht : 2 ≤ s.timer.toNat
  · have hblock := afterBlock_wait hr hp ht
    obtain ⟨t, hstep, hu, hpt, htt, hgt, hqt⟩ := h.step (by simp [hblock, h.busy])
    refine ⟨t, hstep, hu, by simp [hpt, hblock, hp], ?_⟩
    have hfirst : max s.timer.toNat 1 = max t.timer.toNat 1 + 1 := by
      simp only [htt, hblock]
      bv_omega
    rw [hfirst, ← hgt] at hc
    exact hc.wait fun hh => by rw [hqt, hblock]; exact hheard hh
  · rw [show max s.timer.toNat 1 = 1 by omega] at hc
    obtain ⟨hh, hnext⟩ := hc.poll
    have hblock := afterBlock_pauses hr hp (by omega) (hheard hh) (.inl h.maxgap)
    obtain ⟨t, hstep, hu, hpt, htt, hgt, _⟩ := h.step (by simp [hblock, h.busy])
    refine ⟨t, hstep, hu, by simp [hpt, hblock, hp], ?_⟩
    rw [show t.timer = t.gap by simp [htt, hblock, hgt], hgt]
    exact hnext _

/-- Settles O34: a poll after a step with a byte, or at the end of a pause with one, is not quiet and starts a pause. -/
theorem chatteringLineKeepsBusy : Obligations.ChatteringLineKeepsBusy := by
  unfold Obligations.ChatteringLineKeepsBusy
  refine ⟨fun s ws hinv hb hm hws hin => ?everyStep, fun s ws hinv hb hp hm hws hr => ?everyPause⟩
  case everyStep =>
    obtain ⟨t, hrun, hu, _⟩ := run_of_step (P := fun s ws => Unbounded s ws ∧ ∀ w ∈ ws, w.rxValid = true)
      (fun s w ws ⟨h, hv⟩ => byte_step h hv)
      (show _ ∧ _ from ⟨⟨hinv, hb, hm, hws, fun w hw => (hin w hw).1⟩, fun w hw => (hin w hw).2⟩)
    exact ⟨t, hrun, hu.busy, hu.inv.busyPhase.1 hu.busy⟩
  case everyPause =>
    intro first pause hfirst hpause
    obtain ⟨t, hrun, hu, hpt, _⟩ := run_of_step (P := fun s ws => Unbounded s ws ∧ s.phase = .wait ∧
        Chatters (quietPoll s = false) (max s.timer.toNat 1) (max s.gap.toNat 1) ws)
      (fun s w ws ⟨h, hp, hc⟩ => chattering_step h hp hc)
      (show _ ∧ _ ∧ _ from ⟨⟨hinv, hb, hm, hws, hr⟩, hp, fun hlen => by
        rw [quietPoll_eq_false_iff, or_assoc]
        exact hfirst hlen, hpause⟩)
    exact ⟨t, hrun, hu.busy, hpt⟩

/-! ### The frame's bytes -/

/-- The block sends the frame of `s₀` and will have sent `n` of its bytes after the inputs `ws`. -/
structure Sending (s₀ : State) (n : Nat) (later : List Wires) (s : State) (ws : List Wires) : Prop where
  busy : s.status.busy = true
  phase : s.phase = .tx
  txidx : s.txidx + ws.countP (·.txReady) = n
  txbuf : s.txbuf = s₀.txbuf
  txlen : s.txlen = s₀.txlen
  settle : s.settle = s₀.settle
  pending : Pending s (ws ++ later)

/-- Before the last handshake a step offers the same byte again or the next one (R565, R566). -/
theorem afterBlock_sends {s : State} (hr : (wiresNow s).rst = false) (hp : s.phase = .tx)
    (hleft : s.txidx + (wiresNow s).txReady.toNat < s.txlen) :
    afterBlock s = { received s with txidx := s.txidx + (wiresNow s).txReady.toNat } := by
  rw [afterBlock_tx hr hp]
  cases hready : (wiresNow s).txReady with
  | false =>
    rw [transmit_not_ready, Bool.toNat_false, Nat.add_zero, ← received_txidx s]
  | true =>
    rw [hready, Bool.toNat_true] at hleft
    rw [transmit_byte (by simpa using hleft.ne), received_txidx]
    rfl

/-- The step of the last handshake starts the settle delay (R565, R573). -/
theorem afterBlock_sends_last {s : State} (hr : (wiresNow s).rst = false) (hp : s.phase = .tx)
    (hready : (wiresNow s).txReady = true) (hlast : s.txidx + 1 = s.txlen) :
    afterBlock s = { received s with txidx := s.txlen, phase := .wait, timer := s.settle } := by
  rw [afterBlock_tx hr hp, hready, transmit_last_byte (by simpa using hlast)]
  simp [hlast]

theorem Sending.step {s₀ s : State} {n : Nat} {w : Wires} {ws later : List Wires} (hn : n < s₀.txlen)
    (h : Sending s₀ n later s (w :: ws)) : ∃ t, step s = .next t ∧ Sending s₀ n later t ws := by
  have hr := h.pending.no_reset
  have hcount : s.txidx + (wiresNow s).txReady.toNat + ws.countP (·.txReady) = n := by
    rw [← h.txidx, h.pending.wiresNow_eq, List.countP_cons]
    cases w.txReady <;> simp [Nat.add_assoc, Nat.add_comm]
  have hblock := afterBlock_sends hr h.phase (by rw [h.txlen]; omega)
  obtain ⟨ls, ovr, v, hstep⟩ := step_of_busy hr (by simp [hblock, h.busy])
  have hrest := h.pending.tail (step_outside hstep).1
  exact ⟨_, hstep, by simp [hblock, h.busy], by simp [hblock, h.phase], by simpa [hblock] using hcount,
    by simp [hblock, h.txbuf], by simp [hblock, h.txlen], by simp [hblock, h.settle], hrest⟩

/-- Settles O35: each handshake before the last offers the next byte; the last one starts the settle delay. -/
theorem frameBytesLeaveInOrder : Obligations.FrameBytesLeaveInOrder := by
  unfold Obligations.FrameBytesLeaveInOrder
  intro s ws hb hp h0 hws hr
  refine ⟨fun hlt => ?sends, fun vs w hsplit hready hall => ?last⟩
  case sends =>
    obtain ⟨t, hrun, ht⟩ := run_of_step (P := Sending s (ws.countP (·.txReady)) [])
      (fun _ _ _ => Sending.step hlt) (s := s) (ws := ws)
      ⟨hb, hp, by simp [h0], rfl, rfl, rfl, by simpa using ⟨hws, hr⟩⟩
    have hidx : t.txidx = ws.countP (·.txReady) := by simpa using ht.txidx
    refine ⟨t, hrun, ht.phase, hidx, by simp [txValid, ht.phase], ?_⟩
    simp [txFrame, txData, ht.phase, hidx, txByte, ht.txbuf, hlt]
  case last =>
    subst hsplit
    have hcount : vs.countP (·.txReady) + 1 = s.txlen := by simpa [hready] using hall
    obtain ⟨u, hrun, hu⟩ := run_of_step (P := Sending s (vs.countP (·.txReady)) [w])
      (fun _ _ _ => Sending.step (by omega)) (s := s) (ws := vs) ⟨hb, hp, by simp [h0], rfl, rfl, rfl, hws, hr⟩
    have hidx : u.txidx = vs.countP (·.txReady) := by simpa using hu.txidx
    have hblock := afterBlock_sends_last hu.pending.no_reset hu.phase (by rw [hu.pending.wiresNow_eq]; exact hready)
      (by rw [hidx, hcount, hu.txlen])
    obtain ⟨ls, ovr, v, hstep⟩ := step_of_busy hu.pending.no_reset (by simp [hblock, hu.busy])
    have hrun' : Sys2Proof.core.run (vs ++ [w]).length s = step u := by
      rw [List.length_append, run_add _ _ _ _ hrun]
      exact run_one u
    exact ⟨_, hrun'.trans hstep, by simp [hblock], by simp [hblock, hu.settle], by simp [hblock, hu.txlen]⟩

end Sys2Proof.Machine

/-! SUPPORT. The run of a SET command whose device echoes its frame (70_reset_and_hazards.md R730, 41_frame_codec.md
R440): the issue step, the steps to a poll, the first poll, which hears the echo, and the second, which is quiet; with the
obligation this settles. -/

namespace Sys2Proof.Machine

/-! ### The bytes of a line -/

/-- The bytes that arrive with the inputs `ws`. -/
def bytesOf (ws : List Wires) : List Byte := (ws.filter (·.rxValid)).map (·.rxData)

theorem bytesOf_append (vs ws : List Wires) : bytesOf (vs ++ ws) = bytesOf vs ++ bytesOf ws := by
  simp [bytesOf]

theorem bytesOf_cons (w : Wires) (ws : List Wires) : bytesOf (w :: ws) = bytesOf [w] ++ bytesOf ws :=
  bytesOf_append [w] ws

theorem bytesOf_eq_nil {ws : List Wires} (h : ∀ w ∈ ws, w.rxValid = false) : bytesOf ws = [] := by
  simpa [bytesOf, List.filter_eq_nil_iff] using h

/-- While RXBUF has room, the step's byte, if any, comes to the end of the reply, and nothing is lost (R561). -/
theorem received_with_room {s : State} (hc : s.capture = true)
    (hroom : s.rxlen + (bytesOf [wiresNow s]).length ≤ s.params.rxbufDepth) :
    rxReply (received s) = rxReply s ++ bytesOf [wiresNow s] ∧ (received s).status = s.status := by
  unfold received
  cases hv : (wiresNow s).rxValid with
  | false =>
    rw [receive_discarded (.inl rfl)]
    exact ⟨by simp [bytesOf, hv]; rfl, rfl⟩
  | true =>
    have hlt : s.rxlen < s.params.rxbufDepth := by simpa [bytesOf, hv] using hroom
    refine ⟨(rxReply_receive_kept (s := startStep s) hc hlt _).trans ?_, ?_⟩
    · simp [bytesOf, hv]
      rfl
    · rw [receive_kept (by exact hc) (by exact hlt)]
      rfl

@[simp] theorem rxReply_length (s : State) : (rxReply s).length = s.rxlen := by simp [rxReply]

@[simp] theorem txFrame_length (s : State) : (txFrame s).length = s.txlen := by simp [txFrame]

/-! ### The echo -/

/-- The transaction that `s₀` started runs with an idle host for `k` more steps; its drain is at `mark` and `gaps`, and
the reply lacks the bytes `rest` of an echo of the frame. -/
structure Echoing (s₀ : State) (mark : Nat) (gaps : Word) (rest : List Byte) (k : Nat) (s : State) : Prop where
  inv : Inv s
  busy : s.status.busy = true
  status : s.status = s₀.status
  meas : s.meas = s₀.meas
  settle : s.settle = s₀.settle
  gap : s.gap = s₀.gap
  txbuf : s.txbuf = s₀.txbuf
  txlen : s.txlen = s₀.txlen
  frame : s.txlen = 13
  mark_eq : s.mark = mark
  gaps_eq : s.gaps = gaps
  reply : rxReply s ++ rest = txFrame s
  lines : ∃ ls, s.hostProgram = List.replicate k .idle ++ ls

section
variable {s₀ s : State} {mark : Nat} {gaps : Word} {rest : List Byte} {k : Nat}

theorem Echoing.rxlen (h : Echoing s₀ mark gaps rest k s) : s.rxlen + rest.length = 13 := by
  have hlen := congrArg List.length h.reply
  rwa [List.length_append, rxReply_length, txFrame_length, h.frame] at hlen

/-- A frame of 13 bytes fits RXBUF (R9). -/
theorem Echoing.room (h : Echoing s₀ mark gaps rest k s) : s.rxlen + rest.length < s.params.rxbufDepth := by
  have hwf := h.inv.params
  simp only [Params.wf, Bool.and_eq_true, decide_eq_true_eq] at hwf
  have hlen := h.rxlen
  omega

/-- What Receive leaves in a step of the echo. -/
theorem Echoing.reply_received (h : Echoing s₀ mark gaps (bytesOf [wiresNow s] ++ rest) k s) :
    rxReply (received s) ++ rest = txFrame s ∧ (received s).status = s.status ∧
      (received s).rxlen + rest.length = 13 := by
  have hroom := h.room
  rw [List.length_append] at hroom
  obtain ⟨hreply, hstatus⟩ := received_with_room (h.inv.captureBusy.trans h.busy) (by omega)
  have hrest : rxReply (received s) ++ rest = txFrame s := by
    rw [hreply, List.append_assoc]
    exact h.reply
  refine ⟨hrest, hstatus, ?_⟩
  simpa [h.frame] using congrArg List.length hrest

/-- The host's line is idle, so the step is what the block's phases leave. -/
theorem Echoing.idle_step (h : Echoing s₀ mark gaps rest (k + 1) s) (hr : (wiresNow s).rst = false) :
    ∃ ls, step s =
      .next (setReadData 0#32 { afterBlock s with hostProgram := List.replicate k .idle ++ ls }) := by
  obtain ⟨ls, hls⟩ := h.lines
  exact ⟨ls, step_of_line hr hls nofun⟩

/-- A step of the echo that keeps the transaction running, with the host idle. -/
theorem Echoing.goes_on (h : Echoing s₀ mark gaps (bytesOf [wiresNow s] ++ rest) (k + 1) s) (hr : (wiresNow s).rst = false)
    (hb : (afterBlock s).status.busy = true) :
    ∃ ls, step s = .next (setReadData 0#32 { afterBlock s with hostProgram := ls }) ∧
      Echoing s₀ (afterBlock s).mark (afterBlock s).gaps rest k
        (setReadData 0#32 { afterBlock s with hostProgram := ls }) := by
  obtain ⟨ls, hstep⟩ := h.idle_step hr
  have hframe : txFrame (afterBlock s) = txFrame s := by
    simp [txFrame, txByte, afterBlock_no_reset s hr]
  obtain ⟨hreply, hstatus, _⟩ := h.reply_received
  have hrx : rxReply (afterBlock s) = rxReply (received s) := by
    rw [afterBlock_eq_advance hr, advance_frame]
    rfl
  have hkept : (afterBlock s).status = s.status ∧ (afterBlock s).meas = s.meas := by
    rw [afterBlock_eq_advance hr] at hb ⊢
    rcases advance_keeps_status_or_terminates (wiresNow s).txReady (received s) with ⟨hst, hm, _⟩ | ⟨_, e, hend⟩
    · exact ⟨hst.trans hstatus, hm.trans (received_meas s)⟩
    · simp [hend] at hb
  refine ⟨_, hstep, inv_step h.inv hstep, hb, hkept.1.trans h.status, hkept.2.trans h.meas, ?_, ?_, ?_, ?_, ?_, rfl,
    rfl, ?_, ls, rfl⟩
  · simpa [afterBlock_no_reset s hr] using h.settle
  · simpa [afterBlock_no_reset s hr] using h.gap
  · simpa [afterBlock_no_reset s hr] using h.txbuf
  · simpa [afterBlock_no_reset s hr] using h.txlen
  · simpa [afterBlock_no_reset s hr] using h.frame
  · calc rxReply (afterBlock s) ++ rest = txFrame s := by rw [hrx, hreply]
      _ = txFrame (afterBlock s) := hframe.symm

end

/-! ### The steps to a poll -/

/-- The block polls in the `n`-th step from here if the channel stays ready (R565 to R567, R570). -/
def PollsIn (s : State) (n : Nat) : Prop :=
  (s.phase = .tx ∧ s.txidx + n = s.txlen + max s.settle.toNat 1) ∨ (s.phase = .wait ∧ n = max s.timer.toNat 1)

/-- The block sends or waits, with the inputs `ws` still before the poll. -/
structure EchoBeforePoll (s₀ : State) (mark : Nat) (gaps : Word) (rest : List Byte) (k : Nat) (later : List Wires)
    (s : State) (ws : List Wires) : Prop where
  echo : Echoing s₀ mark gaps (bytesOf ws ++ rest) (ws.length + k) s
  pending : Pending s (ws ++ later)
  ready : ∀ w ∈ ws, w.txReady = true
  poll : PollsIn s (ws.length + 1)

theorem EchoBeforePoll.next {s₀ s : State} {mark k : Nat} {gaps : Word} {rest : List Byte} {later ws : List Wires}
    {w : Wires} (h : EchoBeforePoll s₀ mark gaps rest k later s (w :: ws)) :
    ∃ t, step s = .next t ∧ EchoBeforePoll s₀ mark gaps rest k later t ws := by
  have hr := h.pending.no_reset
  have hready : (wiresNow s).txReady = true := by
    rw [h.pending.wiresNow_eq]
    exact h.ready w List.mem_cons_self
  have hecho : Echoing s₀ mark gaps (bytesOf [wiresNow s] ++ (bytesOf ws ++ rest)) (ws.length + k + 1) s := by
    have := h.echo
    rwa [bytesOf_cons, List.append_assoc, ← h.pending.wiresNow_eq, List.length_cons, Nat.add_right_comm] at this
  have hgo : (afterBlock s).status.busy = true ∧ (afterBlock s).mark = mark ∧ (afterBlock s).gaps = gaps ∧
      PollsIn (afterBlock s) (ws.length + 1) := by
    rw [← h.echo.mark_eq, ← h.echo.gaps_eq]
    rcases h.poll with ⟨hp, hn⟩ | ⟨hp, hn⟩
    · obtain ⟨hleft, _⟩ := h.echo.inv.sending hp
      by_cases hlast : s.txidx + 1 = s.txlen
      · rw [afterBlock_sends_last hr hp hready hlast]
        refine ⟨by simp [h.echo.busy], by simp, by simp, .inr ⟨rfl, ?_⟩⟩
        simp only [List.length_cons] at hn
        show ws.length + 1 = max s.settle.toNat 1
        omega
      · rw [afterBlock_sends hr hp (by rw [hready, Bool.toNat_true]; omega), hready]
        refine ⟨by simp [h.echo.busy], by simp, by simp, .inl ⟨by simp [hp], ?_⟩⟩
        simp only [List.length_cons] at hn
        simp only [received_txlen, received_settle, Bool.toNat_true]
        omega
    · simp only [List.length_cons] at hn
      rw [afterBlock_wait hr hp (by omega)]
      have htimer : (s.timer - 1#32).toNat = s.timer.toNat - 1 := by bv_omega
      refine ⟨by simp [h.echo.busy], by simp, by simp, .inr ⟨by simp [hp], ?_⟩⟩
      rw [htimer]
      omega
  obtain ⟨hb, hmark, hgaps, hpoll⟩ := hgo
  obtain ⟨ls, hstep, hnext⟩ := hecho.goes_on hr hb
  rw [hmark, hgaps] at hnext
  exact ⟨_, hstep, hnext, h.pending.tail (step_outside hstep).1,
    fun x hx => h.ready x (List.mem_cons_of_mem _ hx), hpoll⟩

/-- The run to the step of the poll, where its input `w` is due. -/
theorem EchoBeforePoll.run {s₀ s : State} {mark k : Nat} {gaps : Word} {rest : List Byte} {later ws : List Wires}
    (h : EchoBeforePoll s₀ mark gaps rest k later s ws) :
    ∃ t : State, Sys2Proof.core.run ws.length s = .next t ∧ Echoing s₀ mark gaps rest k t ∧ Pending t later ∧
      t.phase = .wait ∧ t.timer.toNat ≤ 1 := by
  obtain ⟨t, hrun, ht⟩ :=
    run_of_step (P := EchoBeforePoll s₀ mark gaps rest k later) (fun _ _ _ => EchoBeforePoll.next) h
  have hecho : Echoing s₀ mark gaps rest k t := by simpa [bytesOf] using ht.echo
  refine ⟨t, hrun, hecho, ht.pending, ?_⟩
  rcases ht.poll with ⟨hp, hn⟩ | ⟨hp, hn⟩
  · obtain ⟨hleft, _⟩ := hecho.inv.sending hp
    simp only [List.length_nil] at hn
    omega
  · simp only [List.length_nil] at hn
    exact ⟨hp, by omega⟩

/-! ### The two polls -/

/-- The first poll hears the echo and starts a pause of GAP (R569). -/
theorem Echoing.first_poll {s₀ s : State} {k : Nat} (h : Echoing s₀ 0 0#32 (bytesOf [wiresNow s]) (k + 1) s)
    (hr : (wiresNow s).rst = false) (hp : s.phase = .wait) (ht : s.timer.toNat ≤ 1) :
    ∃ t, step s = .next t ∧ Echoing s₀ 13 1#32 [] k t ∧ PollsIn t (max s₀.gap.toNat 1) := by
  have h' : Echoing s₀ 0 0#32 (bytesOf [wiresNow s] ++ []) (k + 1) s := by rwa [List.append_nil]
  obtain ⟨_, _, hlen⟩ := h'.reply_received
  rw [List.length_nil, Nat.add_zero] at hlen
  have hheard : quietPoll (received s) = false :=
    (quietPoll_eq_false_iff _).2 (.inl (by rw [hlen, received_mark, h.mark_eq]; decide))
  have hmore : s.maxgap = 0#32 ∨ s.gaps ≠ s.maxgap := by
    rw [h.gaps_eq, ne_comm]
    exact em _
  have hblock := afterBlock_pauses hr hp ht hheard hmore
  obtain ⟨ls, hstep, hnext⟩ := h'.goes_on hr (by simp [hblock, h.busy])
  refine ⟨_, hstep, ?_, .inr ⟨by simp [hblock, hp], by simp [hblock, h.gap]⟩⟩
  have hmark : (afterBlock s).mark = 13 := by rw [hblock]; exact hlen
  have hgaps : (afterBlock s).gaps = 1#32 := by rw [hblock, h.gaps_eq]; rfl
  rwa [hmark, hgaps] at hnext

/-- The second poll is quiet and confirms the echo (R440, R572). -/
theorem Echoing.second_poll {s₀ s : State} {q : Quantity} {gaps : Word} {k : Nat}
    (h : Echoing s₀ 13 gaps (bytesOf [wiresNow s]) (k + 1) s) (hv : (wiresNow s).rxValid = false)
    (hr : (wiresNow s).rst = false) (hp : s.phase = .wait) (ht : s.timer.toNat ≤ 1)
    (hq : opQuantity s₀.status.lastop = some q) (hovf : s₀.status.rxovf = false) (hexp : s₀.status.expired = false) :
    ∃ t, step s = .next t ∧ t.status.busy = false ∧ t.status.done = true ∧ t.status.result = .ok ∧
      t.status.lastop = s₀.status.lastop ∧ t.rxlen = 13 ∧ t.meas = s₀.meas := by
  have h' : Echoing s₀ 13 gaps (bytesOf [wiresNow s] ++ []) (k + 1) s := by rwa [List.append_nil]
  obtain ⟨hreply, hstatus, hlen⟩ := h'.reply_received
  rw [List.append_nil] at hreply
  rw [List.length_nil, Nat.add_zero] at hlen
  have hlost : (received s).lost = false := by
    rw [received, hv, receive_discarded (.inl rfl)]
    by_contra hl
    have := (h.inv.lostFull h.busy (by simpa using hl)).1
    have := h'.room
    omega
  have hquiet : quietPoll { received s with timer := 0#32 } = true :=
    (quietPoll_iff _).2 ⟨by simp [hlen, h.mark_eq], hlost⟩
  have hset : opQuantity (received s).status.lastop = some q := by rw [hstatus, h.status, hq]
  have hblock := (afterBlock_poll hr hp ht).trans ((poll_quiet hquiet).trans (terminate_write _ q hset))
  have hok : classifyWrite (rxReply (received s)) (txFrame (received s)) s₀.status.expired
      s₀.status.rxovf (received s).ctrl.echo = .ok := by
    have hframe : txFrame (received s) = txFrame s := by simp [txFrame, txByte]
    have hne : txFrame s ≠ [] := fun hnil => by simpa [h.frame] using congrArg List.length hnil
    rw [hexp, hovf, hframe, hreply, classifyWrite_reply hne, if_pos (.inl rfl)]
  obtain ⟨ls, hstep⟩ := h.idle_step hr
  refine ⟨_, hstep, by simp [hblock], by simp [hblock], ?_, by simp [hblock, hstatus, h.status], ?_, ?_⟩
  · simp only [setReadData_status, hblock, hstatus, h.status]
    exact hok
  · simpa [hblock] using hlen
  · simp [hblock, h.meas]

/-! ### The whole run -/

/-- The OP of a quantity is that of its SET command. -/
theorem exists_opcode {op : Byte} {q : Quantity} (h : opQuantity op = some q) :
    ∃ i, decodeOp op = .ok i ∧ op = opcode i := by
  have hset : 1 ≤ op.toNat ∧ op.toNat ≤ 6 := by
    by_contra hn
    simp [(opQuantity_eq_none_iff op).2 hn] at h
  obtain ⟨i, hi⟩ := exists_decodeOp hset.1 (by omega)
  exact ⟨i, hi, decodeOp_eq_ok_iff.1 hi⟩

/-- The step of a CMD write that starts a SET command's transaction, from a block between transactions (R562, R563). -/
theorem step_starts_set {s : State} {q : Quantity} {v : Word} {ls : List HostLine} (hinv : Inv s)
    (hb : s.status.busy = false) (hen : s.ctrl.en = true) (hq : opQuantity (opField v) = some q)
    (hr : inRange q (sint32 s.arg) = true) (hrst : (wiresNow s).rst = false) (hp : s.hostProgram = .wr 0x6#4 v :: ls) :
    ∃ u, u = { s with wires := s.wires.tail, hostProgram := ls, now := u.now, out := u.out } ∧ step s = .next
      (startTransaction (buildWrite s.params s.devaddr (quantityAddr q) s.arg) (prepareIssue (opField v) u)) := by
  obtain ⟨i, hd, hop⟩ := exists_opcode hq
  have hfree := afterBlock_free (s := s) hb
  obtain ⟨hexec, hphases⟩ := stepRunsDecodedCommand s v i ls hrst hp hfree hd
  rw [hphases (hinv.idle_of_free hb) (hinv.captureBusy.trans hb)] at hexec
  rw [hop] at hq ⊢
  exact ⟨_, rfl, hexec.trans (exec_set_starts hq hen hr)⟩

/-- The run from the issue on: `ws` brings the echo up to the first poll, in the step of `w`, and the quiet `ws'` leads to
the second poll, in the step of `w'`. -/
theorem run_of_echo {s₀ : State} {q : Quantity} {ws ws' : List Wires} {w w' : Wires}
    (h : Echoing s₀ 0 0#32 (bytesOf (ws ++ [w])) (ws.length + (ws'.length + 1 + 1)) s₀)
    (hp : Pending s₀ (ws ++ [w] ++ (ws' ++ [w']))) (hready : ∀ x ∈ ws ++ [w] ++ (ws' ++ [w']), x.txReady = true)
    (hquiet : ∀ x ∈ ws' ++ [w'], x.rxValid = false) (hpoll : PollsIn s₀ (ws.length + 1))
    (hpause : ws'.length + 1 = max s₀.gap.toNat 1) (hq : opQuantity s₀.status.lastop = some q)
    (hovf : s₀.status.rxovf = false) (hexp : s₀.status.expired = false) :
    ∃ t, Sys2Proof.core.run (ws.length + (ws'.length + 1 + 1)) s₀ = .next t ∧ t.status.busy = false ∧
      t.status.done = true ∧ t.status.result = .ok ∧ t.status.lastop = s₀.status.lastop ∧ t.rxlen = 13 ∧
      t.meas = s₀.meas := by
  have hrest : bytesOf ws' ++ bytesOf [w'] = [] := by rw [← bytesOf_append]; exact bytesOf_eq_nil hquiet
  obtain ⟨t₁, hrun₁, hecho₁, hpend₁, hwait₁, htimer₁⟩ := EchoBeforePoll.run (ws := ws) (rest := bytesOf [w])
    ⟨by rwa [← bytesOf_append], by rwa [← List.append_assoc], fun x hx => hready x (by simp [hx]), hpoll⟩
  rw [← hpend₁.wiresNow_eq] at hecho₁
  obtain ⟨t₂, hstep₂, hecho₂, hpoll₂⟩ := hecho₁.first_poll hpend₁.no_reset hwait₁ htimer₁
  rw [← hpause] at hpoll₂
  have hpend₂ : Pending t₂ (ws' ++ [w']) := hpend₁.tail (step_outside hstep₂).1
  obtain ⟨t₃, hrun₃, hecho₃, hpend₃, hwait₃, htimer₃⟩ := EchoBeforePoll.run (ws := ws') (rest := bytesOf [w'])
    ⟨by rw [hrest]; exact hecho₂, hpend₂, fun x hx => hready x (by simp [hx]), hpoll₂⟩
  have hlast : (wiresNow t₃).rxValid = false := by
    rw [hpend₃.wiresNow_eq]
    exact hquiet w' (by simp)
  rw [← hpend₃.wiresNow_eq] at hecho₃
  obtain ⟨t, hstep, hdone⟩ := hecho₃.second_poll hlast hpend₃.no_reset hwait₃ htimer₃ hq hovf hexp
  refine ⟨t, ?_, hdone⟩
  rw [run_add _ _ _ _ hrun₁, run_succ _ _ _ hstep₂, run_add _ _ _ _ hrun₃]
  exact (run_one t₃).trans hstep

theorem exists_append_singleton {α : Type} {l : List α} {n : Nat} (h : l.length = n + 1) :
    ∃ xs x, l = xs ++ [x] ∧ xs.length = n := by
  have hne : l ≠ [] := by rintro rfl; simp at h
  exact ⟨l.dropLast, l.getLast hne, (List.dropLast_append_getLast hne).symm, by simp [h]⟩

/-- Settles O36: after the issue the first poll comes when the frame is out and the delay is over, the second a pause
later. -/
theorem echoedSetCommandCompletesOk : Obligations.EchoedSetCommandCompletesOk := by
  unfold Obligations.EchoedSetCommandCompletesOk
  intro s q v w0 ws later ls hinv hb hen hq hr n hlines hwires hw0 hlen hin hecho hquiet
  have hrst : (wiresNow s).rst = false := by simp [wiresNow, hwires, hw0]
  obtain ⟨u, hu, hstart⟩ := step_starts_set hinv hb hen hq hr hrst hlines
  obtain ⟨ws₁, w₁, hws₁, hlen₁⟩ := exists_append_singleton (l := ws.take (13 + max s.settle.toNat 1))
    (n := 12 + max s.settle.toNat 1) (by rw [List.length_take]; omega)
  obtain ⟨ws₂, w₂, hws₂, hlen₂⟩ := exists_append_singleton (l := ws.drop (13 + max s.settle.toNat 1))
    (n := max s.gap.toNat 1 - 1) (by rw [List.length_drop]; omega)
  have hsplit : ws = ws₁ ++ [w₁] ++ (ws₂ ++ [w₂]) := by rw [← hws₁, ← hws₂, List.take_append_drop]
  rw [hws₁] at hecho
  rw [hws₂] at hquiet
  have hn : ws₁.length + (ws₂.length + 1 + 1) = n := by omega
  have hinv₀ := inv_step hinv hstart
  have hfirst : 0 + (ws₁.length + 1) = 13 + max u.settle.toNat 1 := by
    rw [hlen₁, show u.settle = s.settle by rw [hu]]
    omega
  have hpause : ws₂.length + 1 = max u.gap.toNat 1 := by
    rw [hlen₂, show u.gap = s.gap by rw [hu]]
    omega
  have hframe := txFrame_startTransaction (buildWrite s.params s.devaddr (quantityAddr q) s.arg)
    (prepareIssue (opField v) u)
  obtain ⟨t, hrun, hbt, hdt, hres, hop, hrx, hm⟩ := run_of_echo (q := q) (ws := ws₁) (ws' := ws₂) (w := w₁) (w' := w₂)
    ⟨hinv₀, rfl, rfl, rfl, rfl, rfl, rfl, rfl, by simp, rfl, rfl, hecho.trans hframe.symm, ls, by rw [hn, hu]; rfl⟩
    ⟨⟨later, by rw [← hsplit, hu]; simp [hwires]⟩, fun x hx => (hin x (hsplit ▸ hx)).1⟩
    (fun x hx => (hin x (hsplit ▸ hx)).2) hquiet (.inl ⟨rfl, hfirst⟩) hpause hq rfl rfl
  rw [hn] at hrun
  exact ⟨t, (run_succ _ _ _ hstart).trans hrun, hbt, hdt, hres, hop, hrx, by rw [hm, hu]; rfl⟩

end Sys2Proof.Machine

/-! SUPPORT. No step reads a byte of TXBUF at or above TXLEN or of RXBUF at or above RXLEN (93_implementation_defined.md
U2): two states that differ in such bytes only stay so through every operation of a step, with the obligation this
settles. -/

namespace Sys2Proof.Machine

/-- Two states that differ in the buffers only, and there only in bytes that are never read. -/
structure SameRead (s t : State) : Prop where
  same : t = { s with txbuf := t.txbuf, rxbuf := t.rxbuf }
  tx : ∀ i < s.txlen, txByte t i = txByte s i
  rx : ∀ i < s.rxlen, rxByte t i = rxByte s i

section
variable {s t : State} (h : SameRead s t)
include h

theorem SameRead.exists_buffers : ∃ tx rx, t = { s with txbuf := tx, rxbuf := rx } := ⟨_, _, h.same⟩

theorem SameRead.rxReply_eq : rxReply t = rxReply s := by
  have hlen : t.rxlen = s.rxlen := by rw [h.same]
  rw [rxReply, hlen]
  exact List.map_congr_left fun i hi => h.rx i (List.mem_range.1 hi)

theorem SameRead.txFrame_eq : txFrame t = txFrame s := by
  have hlen : t.txlen = s.txlen := by rw [h.same]
  rw [txFrame, hlen]
  exact List.map_congr_left fun i hi => h.tx i (List.mem_range.1 hi)

/-- What leaves the buffers and their lengths alone, and does the same to both states, keeps them so. -/
theorem SameRead.update {s' t' : State} (htx : s'.txbuf = s.txbuf) (hrx : s'.rxbuf = s.rxbuf)
    (htxlen : s'.txlen = s.txlen) (hrxlen : s'.rxlen = s.rxlen)
    (ht : t' = { s' with txbuf := t.txbuf, rxbuf := t.rxbuf }) : SameRead s' t' := by
  subst ht
  refine ⟨rfl, fun i hi => ?_, fun i hi => ?_⟩
  · simpa [txByte, htx] using h.tx i (htxlen ▸ hi)
  · simpa [rxByte, hrx] using h.rx i (hrxlen ▸ hi)

/-! ### The block's phases -/

theorem SameRead.startStep (hsend : s.phase = .tx → s.txidx < s.txlen) : SameRead (startStep s) (startStep t) := by
  have hdata : txData t = txData s := by
    have hphase : t.phase = s.phase := by rw [h.same]
    have hidx : t.txidx = s.txidx := by rw [h.same]
    unfold txData
    rw [hphase, hidx]
    split_ifs with hp
    · exact h.tx _ (hsend hp)
    · rfl
  refine h.update rfl rfl rfl rfl ?_
  rw [Machine.startStep, hdata]
  obtain ⟨tx, rx, rfl⟩ := h.exists_buffers
  rfl

theorem SameRead.receive (v : Bool) (d : Byte) : SameRead (receive v d s) (receive v d t) := by
  obtain ⟨tx, rx, rfl⟩ := h.exists_buffers
  rcases receive_cases v d s with ⟨hd, e⟩ | ⟨rfl, hc, hroom, e⟩ | ⟨rfl, hc, hfull, e⟩ <;> rw [e]
  · rwa [receive_discarded (by exact hd)]
  · rw [receive_kept (by exact hc) (by exact hroom)]
    refine ⟨rfl, h.tx, fun i hi => ?_⟩
    rcases Nat.lt_succ_iff_lt_or_eq.1 hi with hlt | rfl
    · simpa [rxByte, Memory.read_write_other _ _ hlt.ne] using h.rx i hlt
    · simp [rxByte]
  · rw [receive_lost (by exact hc) (by exact hfull)]
    exact h.update rfl rfl rfl rfl rfl

/-- A termination reads the reply and the frame, which the two states share. -/
theorem SameRead.terminate_eq : terminate t = { terminate s with txbuf := t.txbuf, rxbuf := t.rxbuf } := by
  have hreply := h.rxReply_eq
  have hframe := h.txFrame_eq
  obtain ⟨tx, rx, rfl⟩ := h.exists_buffers
  cases hq : opQuantity s.status.lastop with
  | some q => rw [terminate_write s q hq, terminate_write _ q (by exact hq), hreply, hframe]
  | none =>
    rw [terminate_read s hq, terminate_read _ (by exact hq), hreply]
    cases classifyRead s.params (rxReply s) s.devaddr s.ctrl.rxcrc s.status.expired s.status.rxovf <;> rfl

theorem SameRead.poll_eq : poll t = { poll s with txbuf := t.txbuf, rxbuf := t.rxbuf } := by
  obtain ⟨tx, rx, rfl⟩ := h.exists_buffers
  rcases poll_cases s with ⟨hq, e⟩ | ⟨hq, hm, hg, e⟩ | ⟨hq, hm, e⟩ <;> rw [e]
  · rw [poll_quiet (by exact hq)]
    exact h.terminate_eq
  · rw [poll_expires (by exact hq) (by exact hm) (by exact hg)]
    exact (h.update (s' := { s with status := { s.status with expired := true } }) rfl rfl rfl rfl rfl).terminate_eq
  · rw [poll_pauses (by exact hq) (by exact hm)]

theorem SameRead.transmit_eq (r : Bool) : transmit r t = { transmit r s with txbuf := t.txbuf, rxbuf := t.rxbuf } := by
  obtain ⟨tx, rx, rfl⟩ := h.exists_buffers
  rcases transmit_cases r s with ⟨rfl, e⟩ | ⟨rfl, hmore, e⟩ | ⟨rfl, hlast, e⟩ <;> rw [e]
  · rw [transmit_not_ready]
  · rw [transmit_byte (by exact hmore)]
  · rw [transmit_last_byte (by exact hlast)]

theorem SameRead.waitTick_eq : waitTick t = { waitTick s with txbuf := t.txbuf, rxbuf := t.rxbuf } := by
  obtain ⟨tx, rx, rfl⟩ := h.exists_buffers
  rcases waitTick_cases s with ⟨ht, e⟩ | ⟨ht, e⟩ <;> rw [e]
  · rw [waitTick_counts (by exact ht)]
  · rw [waitTick_polls (by exact ht)]
    exact (h.update (s' := { s with timer := 0#32 }) rfl rfl rfl rfl rfl).poll_eq

theorem SameRead.advance_eq (r : Bool) : advance r t = { advance r s with txbuf := t.txbuf, rxbuf := t.rxbuf } := by
  have hphase : t.phase = s.phase := by rw [h.same]
  cases hp : s.phase with
  | idle =>
    rw [advance_idle r s hp, advance_idle r t (hphase.trans hp)]
    exact h.same
  | tx =>
    rw [advance_tx r s hp, advance_tx r t (hphase.trans hp)]
    exact h.transmit_eq r
  | wait =>
    rw [advance_wait r s hp, advance_wait r t (hphase.trans hp)]
    exact h.waitTick_eq

theorem SameRead.advance (r : Bool) : SameRead (advance r s) (advance r t) := by
  have hframe := advance_frame r s
  exact h.update (by rw [hframe]) (by rw [hframe]) (by rw [hframe]) (by rw [hframe]) (h.advance_eq r)

/-! ### The host's access -/

theorem SameRead.startTransaction (f : List Byte) : SameRead (startTransaction f s) (startTransaction f t) := by
  obtain ⟨tx, rx, rfl⟩ := h.exists_buffers
  refine ⟨rfl, fun i hi => ?_, nofun⟩
  have hread (m : Memory) := (read_writeBytes_frame m f).1 i hi
  simp [txByte, hread]

theorem SameRead.prepareIssue (op : Byte) : SameRead (prepareIssue op s) (prepareIssue op t) := by
  refine h.update rfl rfl rfl rfl ?_
  obtain ⟨tx, rx, rfl⟩ := h.exists_buffers
  rfl

theorem SameRead.finish (c : Result) : SameRead (finish c s) (finish c t) := by
  refine h.update rfl rfl rfl rfl ?_
  obtain ⟨tx, rx, rfl⟩ := h.exists_buffers
  rfl

theorem SameRead.setReadData (v : Word) : SameRead (setReadData v s) (setReadData v t) := by
  refine h.update rfl rfl rfl rfl ?_
  obtain ⟨tx, rx, rfl⟩ := h.exists_buffers
  rfl

theorem SameRead.execSet (q : Quantity) : SameRead (execSet q s) (execSet q t) := by
  obtain ⟨tx, rx, rfl⟩ := h.exists_buffers
  unfold Machine.execSet
  split_ifs
  · exact h.finish _
  · exact h.finish _
  · exact h.startTransaction _

theorem SameRead.execGet : SameRead (execGet s) (execGet t) := by
  obtain ⟨tx, rx, rfl⟩ := h.exists_buffers
  unfold Machine.execGet
  split_ifs
  · exact (h.update (s' := clearMeas s) rfl rfl rfl rfl rfl).finish _
  · exact h.startTransaction _

end

/-- Two outcomes that are next states, different only in bytes never read. -/
def SameReadNext (a b : Outcome) : Prop := ∃ s t, a = .next s ∧ b = .next t ∧ SameRead s t

section
variable {s t : State} (h : SameRead s t)
include h

theorem SameRead.exec (i : Instr) : SameReadNext (exec i s) (exec i t) := by
  cases i with
  | getMeasurements => exact ⟨_, _, rfl, rfl, (h.prepareIssue _).execGet⟩
  | _ => exact ⟨_, _, rfl, rfl, (h.prepareIssue _).execSet _⟩

theorem SameRead.issue (v : Word) : SameReadNext (issue v s) (issue v t) := by
  cases hd : decode v with
  | ok i =>
    rw [issue_ok hd, issue_ok hd]
    exact h.exec i
  | error e =>
    obtain ⟨op⟩ := e
    rw [issue_error hd, issue_error hd]
    exact ⟨_, _, rfl, rfl, (h.prepareIssue op).finish _⟩

theorem SameRead.acceptWrite (r : HostReg) (v : Word) : SameReadNext (acceptWrite r v s) (acceptWrite r v t) := by
  cases r with
  | cmd => exact h.issue v
  | status | meas | measV | measI | rxlen => exact ⟨s, t, rfl, rfl, h⟩
  | _ =>
    obtain ⟨tx, rx, rfl⟩ := h.exists_buffers
    exact ⟨_, _, rfl, rfl, h.update rfl rfl rfl rfl rfl⟩

theorem SameRead.hostWrite (idx : BitVec 4) (v : Word) : SameReadNext (hostWrite idx v s) (hostWrite idx v t) := by
  have hbusy : t.status.busy = s.status.busy := by rw [h.same]
  unfold Machine.hostWrite
  rw [hbusy]
  cases hostRegAt idx with
  | none => exact ⟨s, t, rfl, rfl, h⟩
  | some r =>
    dsimp only
    cases guardedReg r && s.status.busy with
    | false => exact h.acceptWrite r v
    | true =>
      obtain ⟨tx, rx, rfl⟩ := h.exists_buffers
      exact ⟨_, _, rfl, rfl, h.update rfl rfl rfl rfl rfl⟩

theorem SameRead.hostAccess (p : HostPort) : SameReadNext (hostAccess p s) (hostAccess p t) := by
  have hnow : t.now = s.now := by rw [h.same]
  have hread (r : HostReg) : hostRegWord t r = hostRegWord s r := by
    obtain ⟨tx, rx, rfl⟩ := h.exists_buffers
    cases r <;> rfl
  unfold Machine.hostAccess
  rw [hnow]
  split_ifs
  · exact (h.setReadData _).hostWrite _ _
  · have hword : hostRead t p.idx = hostRead s p.idx := by simp only [hostRead, hread]
    rw [hword]
    exact ⟨_, _, rfl, rfl, h.setReadData _⟩
  · exact ⟨_, _, rfl, rfl, h.setReadData _⟩

/-! ### The step -/

omit h in
/-- What remains of the host's lines after a step follows from the lines and BUSY. -/
theorem retireLine_hostProgram_congr (hlines : t.hostProgram = s.hostProgram) (hbusy : t.status.busy = s.status.busy) :
    (retireLine t).hostProgram = (retireLine s).hostProgram := by
  cases hs : s.hostProgram with
  | nil => simp [retireLine, hlines, hs]
  | cons l ls =>
    by_cases hl : l = .poll
    · subst hl
      rw [retireLine_of_poll hs, retireLine_of_poll (hlines.trans hs), hbusy]
    · rw [retireLine_of_ne_poll hs hl, retireLine_of_ne_poll (hlines.trans hs) hl]

theorem SameRead.afterBlock (hsend : s.phase = .tx → s.txidx < s.txlen) : SameRead (afterBlock s) (afterBlock t) := by
  have hstart := h.startStep hsend
  have hwires : wiresNow t = wiresNow s := by
    obtain ⟨tx, rx, rfl⟩ := h.exists_buffers
    rfl
  unfold Machine.afterBlock
  rw [hwires]
  split_ifs
  · obtain ⟨tx, rx, e⟩ := hstart.exists_buffers
    rw [e]
    exact ⟨rfl, nofun, nofun⟩
  · exact (hstart.receive _ _).advance _

theorem SameRead.retireLine : SameRead (retireLine s) (retireLine t) := by
  have hlines : (Machine.retireLine t).hostProgram = (Machine.retireLine s).hostProgram :=
    retireLine_hostProgram_congr (by rw [h.same]) (by rw [h.same])
  rw [retireLine_frame s, retireLine_frame t, hlines]
  refine h.update rfl rfl rfl rfl ?_
  obtain ⟨tx, rx, rfl⟩ := h.exists_buffers
  rfl

theorem SameRead.step (hsend : s.phase = .tx → s.txidx < s.txlen) : SameReadNext (step s) (step t) := by
  have hbefore : SameRead (beforeHost s) (beforeHost t) := (h.afterBlock hsend).retireLine
  have hinputs : wiresNow t = wiresNow s ∧ hostPortNow t = hostPortNow s := by
    obtain ⟨tx, rx, rfl⟩ := h.exists_buffers
    exact ⟨rfl, rfl⟩
  unfold Machine.step cycle
  rw [hinputs.1, hinputs.2]
  split_ifs
  · exact ⟨_, _, rfl, rfl, hbefore.setReadData _⟩
  · exact hbefore.hostAccess _

end

/-- Settles O48: the two steps answer states that differ in unread bytes only. -/
theorem unwrittenBytesNeverMatter : Obligations.UnwrittenBytesNeverMatter := by
  unfold Obligations.UnwrittenBytesNeverMatter
  intro s t s' hsend hsame htx hrx hstep
  obtain ⟨u, t', hu, ht', hread⟩ := SameRead.step ⟨hsame, htx, hrx⟩ hsend
  cases hstep.symm.trans hu
  exact ⟨t', ht', hread.same, hread.tx, hread.rx⟩

end Sys2Proof.Machine

/-! SUPPORT. The codes a host reads (10_state.md R119, R120), and the operands that the adapter lets through
(45_host_adapter.md R600 to R611), with the obligations these settle. -/

namespace Sys2Proof.Machine

/-! ### Codes in register words -/

theorem statusWord_result (st : Status) (ph : Phase) :
    (statusWord st ph).toNat / 256 % 8 = (resultCode st.result).toNat := by
  have hbusy := st.busy.toNat_lt
  have hdone := st.done.toNat_lt
  have hovr := st.ovr.toNat_lt
  have hrxovf := st.rxovf.toNat_lt
  have hexpired := st.expired.toNat_lt
  have hresult := (resultCode st.result).isLt
  rw [toNat_statusWord]
  omega

theorem statusWord_phase (st : Status) (ph : Phase) :
    (statusWord st ph).toNat / 4096 % 4 = (phaseCode ph).toNat := by
  have hbusy := st.busy.toNat_lt
  have hdone := st.done.toNat_lt
  have hovr := st.ovr.toNat_lt
  have hrxovf := st.rxovf.toNat_lt
  have hexpired := st.expired.toNat_lt
  have hresult := (resultCode st.result).isLt
  have hphase := (phaseCode ph).isLt
  rw [toNat_statusWord]
  omega

theorem measWord_mode (m : Meas) : (measWord m).toNat / 4 % 4 = (modeCode m.mode).toNat := by
  have hvalid := m.valid.toNat_lt
  have hon := m.on.toNat_lt
  have hmode := (modeCode m.mode).isLt
  rw [toNat_measWord]
  omega

theorem phaseCode_inj (a b : Phase) : phaseCode a = phaseCode b ↔ a = b := by cases a <;> cases b <;> decide

theorem modeCode_inj (a b : LoadMode) : modeCode a = modeCode b ↔ a = b := by cases a <;> cases b <;> decide

theorem resultCode_ne_seven (r : Result) : (resultCode r).toNat ≠ 7 := by cases r <;> decide

theorem phaseCode_ne_three (p : Phase) : (phaseCode p).toNat ≠ 3 := by cases p <;> decide

/-- Settles O15: each field of the word is a code, and the code table is one to one. -/
theorem resultAndPhaseReadAsTheirCodes : Obligations.ResultAndPhaseReadAsTheirCodes := by
  unfold Obligations.ResultAndPhaseReadAsTheirCodes
  intro s
  have hresult : (hostRead s 0x7#4).toNat / 256 % 8 = (resultCode s.status.result).toNat := statusWord_result _ _
  have hphase : (hostRead s 0x7#4).toNat / 4096 % 4 = (phaseCode s.phase).toNat := statusWord_phase _ _
  have hmode : (hostRead s 0x8#4).toNat / 4 % 4 = (modeCode s.meas.mode).toNat := measWord_mode _
  dsimp only
  rw [hresult, hphase, hmode]
  have result (r : Result) : (resultCode s.status.result).toNat = (resultCode r).toNat ↔ s.status.result = r :=
    BitVec.toNat_inj.trans (resultCode_inj _ r)
  have phase (p : Phase) : (phaseCode s.phase).toNat = (phaseCode p).toNat ↔ s.phase = p :=
    BitVec.toNat_inj.trans (phaseCode_inj _ p)
  have mode (m : LoadMode) : (modeCode s.meas.mode).toNat = (modeCode m).toNat ↔ s.meas.mode = m :=
    BitVec.toNat_inj.trans (modeCode_inj _ m)
  exact ⟨result .none, result .ok, result .invalidInput, result .noReply, result .notConfirmed, result .invalidCmd,
    result .closed, resultCode_ne_seven _, phase .idle, phase .tx, phase .wait, phaseCode_ne_three _, mode .cv,
    mode .cc, mode .cr, mode .cw⟩

/-! ### Operands -/

/-- The adapter lets through exactly the integers of the quantity's range, as words of that value (R601, R604). -/
theorem checkedOperand_eq_ok_iff {q : Quantity} {n : Option Int} {x : Word} :
    checkedOperand q n = .ok x ↔ ∃ z : Int, n = some z ∧ 0 ≤ z ∧ z ≤ quantityHi q ∧ x.toInt = z := by
  have hfits : quantityHi q < 2 ^ 31 := by cases q <;> decide
  cases n with
  | none => simp [checkedOperand]
  | some z =>
    simp only [checkedOperand, Option.some.injEq, exists_eq_left']
    by_cases hr : inRange q z = true
    · obtain ⟨hlo, hhi⟩ := (inRange_iff q z).1 hr
      have hz : (BitVec.ofInt 32 z).toInt = z := BitVec.toInt_ofInt_eq_self (by decide) (by omega) (by omega)
      rw [if_pos hr, Except.ok.injEq, ← BitVec.toInt_inj, hz]
      exact ⟨fun h => ⟨hlo, hhi, h.symm⟩, fun h => h.2.2.symm⟩
    · rw [if_neg hr]
      exact ⟨nofun, fun ⟨hlo, hhi, _⟩ => absurd ((inRange_iff q z).2 ⟨hlo, hhi⟩) hr⟩

theorem inRange_of_checkedOperand {q : Quantity} {n : Option Int} {x : Word} (h : checkedOperand q n = .ok x) :
    inRange q (sint32 x) = true := by
  obtain ⟨z, _, hlo, hhi, hx⟩ := checkedOperand_eq_ok_iff.1 h
  exact (inRange_iff q _).2 (by rw [sint32, hx]; exact ⟨hlo, hhi⟩)

/-- Settles O50: the switch writes 0 or 1, and every other operand went through the range check of its own quantity. -/
theorem adapterOperandIsInRange : Obligations.AdapterOperandIsInRange := by
  unfold Obligations.AdapterOperandIsInRange
  intro m x q h hq
  cases m with
  | setPowerState on =>
    cases hq
    cases h
    cases on <;> decide
  | setMode n =>
    cases hq
    cases n with
    | int z => exact inRange_of_checkedOperand (n := some z) h
    | float b => cases h
  | getMeasurements => cases hq
  | setVoltage n | setCurrent n | setResistance n | setPower n =>
    cases hq
    exact inRange_of_checkedOperand h

/-- Settles O51, by the range check; a float is no mode. -/
theorem adapterAcceptsExactlyTheRange : Obligations.AdapterAcceptsExactlyTheRange := by
  unfold Obligations.AdapterAcceptsExactlyTheRange
  refine ⟨⟨rfl, rfl⟩, fun n x => ⟨checkedOperand_eq_ok_iff, checkedOperand_eq_ok_iff, checkedOperand_eq_ok_iff,
    checkedOperand_eq_ok_iff, ?mode⟩⟩
  cases n with
  | int z => simpa [methodOperand, modeOperand, quantityHi] using checkedOperand_eq_ok_iff (q := .mode) (n := some z)
  | float b => simp [methodOperand, modeOperand]

/-- Settles O53: without an operand a method has no lines, so nothing is handed to the block. -/
theorem adapterInputErrorLeavesBlockUntouched : Obligations.AdapterInputErrorLeavesBlockUntouched := by
  unfold Obligations.AdapterInputErrorLeavesBlockUntouched
  intro fuel m s h
  simp [callMethod, methodLines, h]

/-- Settles O52: the listed products and roundings evaluate; an integer is scaled exactly, and a NaN stays one. -/
theorem adapterRoundsTiesToEven : Obligations.AdapterRoundsTiesToEven := by
  unfold Obligations.AdapterRoundsTiesToEven
  refine ⟨?_, ?_, ?_, ?_, ?_, ?_, ?_, ?_, ?_, fun _ _ => rfl, fun k => ?nan⟩
  case nan =>
    have hnan : decodeF64 0x7FF8000000000000#64 = .nan := by decide
    simp [encodeValue, hnan, mulF64, roundF64]
  all_goals decide +kernel

/-- Settles O60: the words evaluate to the source's example. -/
theorem adapterSnapshotExample : Obligations.AdapterSnapshotExample := by
  unfold Obligations.AdapterSnapshotExample
  decide +kernel

/-- Settles O38: the reset state spells out these fields. -/
theorem powerOnStateIsClosedAndIdle : Obligations.PowerOnStateIsClosedAndIdle := by
  unfold Obligations.PowerOnStateIsClosedAndIdle
  exact ⟨rfl, rfl, rfl, rfl, rfl, rfl, rfl, rfl, rfl, rfl, rfl, rfl⟩

end Sys2Proof.Machine

/-! SUPPORT. How the adapter opens and closes a session (45_host_adapter.md R615): runs of register writes between
transactions, and the POLL line before the last write, with the obligations these settle. -/

namespace Sys2Proof.Machine

/-! ### The settings -/

/-- The registers that a host configures (R112 to R117). -/
structure Settings where
  ctrl : Ctrl
  devaddr : Byte
  settle : Word
  gap : Word
  maxgap : Word
  arg : Word

def settingsOf (s : State) : Settings := ⟨s.ctrl, s.devaddr, s.settle, s.gap, s.maxgap, s.arg⟩

/-- The settings after a write of a word to a register other than CMD (R203). -/
def Settings.write (c : Settings) (p : HostReg × Word) : Settings :=
  match p.1 with
  | .ctrl => { c with ctrl := ctrlOfWord p.2 }
  | .devaddr => { c with devaddr := p.2.extractLsb' 0 8 }
  | .settle => { c with settle := p.2 }
  | .gap => { c with gap := p.2 }
  | .maxgap => { c with maxgap := p.2 }
  | .arg => { c with arg := p.2 }
  | _ => c

theorem acceptWrite_settings {r : HostReg} (hr : r ≠ .cmd) (v : Word) (s : State) :
    ∃ t, acceptWrite r v s = .next t ∧ settingsOf t = (settingsOf s).write (r, v) ∧ t.status = s.status ∧
      t.phase = s.phase := by
  cases r with
  | cmd => exact absurd rfl hr
  | _ => exact ⟨_, rfl, rfl, rfl, rfl⟩

theorem settingsOf_afterBlock {s : State} (hr : (wiresNow s).rst = false) :
    settingsOf (afterBlock s) = settingsOf s := by
  simp [settingsOf, afterBlock_no_reset s hr]

theorem ctrlOfWord_ctrlWord (c : Ctrl) : ctrlOfWord (ctrlWord c) = c := by
  obtain ⟨en, rxcrc, echo⟩ := c
  cases en <;> cases rxcrc <;> cases echo <;> rfl

/-- The step of a register write while the block is free (R203). -/
theorem step_of_write {s : State} {r : HostReg} {v : Word} {ls : List HostLine} (hr : (wiresNow s).rst = false)
    (hb : s.status.busy = false) (hp : s.hostProgram = .wr (hostIdx r) v :: ls) :
    step s =
      acceptWrite r v (setReadData (Config.freeReadData (s.now + 1)) { afterBlock s with hostProgram := ls }) := by
  rw [← afterBlock_now, step_of_line hr hp nofun]
  exact hostWrite_free (s := setReadData _ { afterBlock s with hostProgram := ls }) r (afterBlock_free hb) v

/-! ### Opening a session -/

/-- The block is between transactions, with host lines and inputs pending and no reset among them. -/
structure Between (s : State) (ls : List HostLine) (ws : List Wires) : Prop where
  phase : s.phase = .idle
  free : s.status.busy = false
  lines : s.hostProgram = ls
  pending : Pending s ws

/-- The host line that writes a register. -/
def settingLine (p : HostReg × Word) : HostLine := .wr (hostIdx p.1) p.2

theorem afterBlock_phase_idle {s : State} (hr : (wiresNow s).rst = false) (hp : s.phase = .idle) :
    (afterBlock s).phase = .idle := by
  rw [afterBlock_eq_advance hr, advance_idle _ _ (by simp [hp])]
  simp [hp]

theorem Between.write {s : State} {p : HostReg × Word} {ls : List HostLine} {w : Wires} {ws : List Wires}
    (h : Between s (settingLine p :: ls) (w :: ws)) (hp : p.1 ≠ .cmd) :
    ∃ t, step s = .next t ∧ Between t ls ws ∧ settingsOf t = (settingsOf s).write p := by
  have hr := h.pending.no_reset
  obtain ⟨t, ht, hset, hstatus, hphase⟩ := acceptWrite_settings hp p.2
    (setReadData (Config.freeReadData (s.now + 1)) { afterBlock s with hostProgram := ls })
  have hstep : step s = .next t := (step_of_write hr h.free h.lines).trans ht
  have hlines : t.hostProgram = ls := ((pollLineWaitsForCompletion s t _ ls hstep h.lines hr).1 nofun)
  refine ⟨t, hstep, ⟨hphase.trans (afterBlock_phase_idle hr h.phase), ?_, hlines,
    h.pending.tail (step_outside hstep).1⟩, ?_⟩
  · rw [hstatus]
    exact afterBlock_free h.free
  · rw [hset]
    exact congrArg (·.write p) (settingsOf_afterBlock hr)

/-- A run of register writes leaves the settings with these writes made, in their order. -/
theorem Between.writes {ps : List (HostReg × Word)} {s : State} {ls : List HostLine} {ws : List Wires}
    (h : Between s (ps.map settingLine ++ ls) ws) (hlen : ws.length = ps.length) (hp : ∀ p ∈ ps, p.1 ≠ .cmd) :
    ∃ t : State, Sys2Proof.core.run ws.length s = .next t ∧ Between t ls [] ∧
      settingsOf t = ps.foldl Settings.write (settingsOf s) := by
  induction ps generalizing s ws with
  | nil =>
    obtain rfl := List.eq_nil_of_length_eq_zero hlen
    exact ⟨s, rfl, h, rfl⟩
  | cons p ps ih =>
    obtain ⟨w, ws, rfl⟩ := List.exists_cons_of_length_eq_add_one hlen
    obtain ⟨u, hstep, hu, hset⟩ := h.write (hp p List.mem_cons_self)
    obtain ⟨t, hrun, ht, hsets⟩ := ih hu (Nat.succ.inj hlen) fun x hx => hp x (List.mem_cons_of_mem _ hx)
    exact ⟨t, (run_succ _ _ _ hstep).trans hrun, ht, by rw [hsets, hset]; rfl⟩

/-- The registers that the lines of `openSession` write, in their order (R615). -/
def sessionWrites (addr : Byte) (settle gap maxgap : Option Word) (rxcrc echo : Bool) : List (HostReg × Word) :=
  [(HostReg.devaddr, addr.setWidth 32)] ++ settle.toList.map (Prod.mk HostReg.settle) ++
    gap.toList.map (Prod.mk HostReg.gap) ++ maxgap.toList.map (Prod.mk HostReg.maxgap) ++
    [(HostReg.ctrl, ctrlWord { en := true, rxcrc := rxcrc, echo := echo })]

theorem tuneLine_eq (r : HostReg) (o : Option Word) : tuneLine r o = (o.toList.map (Prod.mk r)).map settingLine := by
  cases o <;> rfl

theorem openSession_eq (addr : Byte) (settle gap maxgap : Option Word) (rxcrc echo : Bool) :
    openSession addr settle gap maxgap rxcrc echo =
      (sessionWrites addr settle gap maxgap rxcrc echo).map settingLine := by
  simp only [openSession, sessionWrites, tuneLine_eq, List.map_append]
  rfl

theorem sessionWrites_ne_cmd {addr : Byte} {settle gap maxgap : Option Word} {rxcrc echo : Bool} :
    ∀ p ∈ sessionWrites addr settle gap maxgap rxcrc echo, p.1 ≠ .cmd := by
  intro p hp
  simp only [sessionWrites, List.mem_append, List.mem_singleton, List.mem_map] at hp
  rcases hp with (((rfl | ⟨_, _, rfl⟩) | ⟨_, _, rfl⟩) | ⟨_, _, rfl⟩) | rfl <;> nofun

/-- The writes of a session set what the caller chose and keep the rest. -/
theorem foldl_sessionWrites (addr : Byte) (settle gap maxgap : Option Word) (rxcrc echo : Bool) (c : Settings) :
    (sessionWrites addr settle gap maxgap rxcrc echo).foldl Settings.write c =
      { ctrl := { en := true, rxcrc := rxcrc, echo := echo }, devaddr := addr, settle := settle.getD c.settle
        gap := gap.getD c.gap, maxgap := maxgap.getD c.maxgap, arg := c.arg } := by
  have haddr : (addr.setWidth 32).extractLsb' 0 8 = addr := by
    refine BitVec.eq_of_getLsbD_eq fun j hj => ?_
    simp [hj, show j < 32 by omega]
  cases settle <;> cases gap <;> cases maxgap <;>
    simp [sessionWrites, Settings.write, haddr, ctrlOfWord_ctrlWord]

/-- Settles O56: the lines are register writes between transactions, and these make the settings stated. -/
theorem openSessionConfiguresTheBlock : Obligations.OpenSessionConfiguresTheBlock := by
  unfold Obligations.OpenSessionConfiguresTheBlock
  intro s addr settle gap maxgap rxcrc echo ws ls hphase hb hlines hws hlen hr
  rw [openSession_eq] at hlines hlen
  obtain ⟨t, hrun, ht, hset⟩ := Between.writes (s := s) (ls := ls) ⟨hphase, hb, hlines, hws, hr⟩
    (by rwa [List.length_map] at hlen) sessionWrites_ne_cmd
  rw [foldl_sessionWrites] at hset
  obtain ⟨hctrl, haddr, hsettle, hgap, hmaxgap, harg⟩ := Settings.mk.inj hset
  exact ⟨t, hrun, haddr, hctrl, hsettle, hgap, hmaxgap, harg, ht.free, ht.phase, ht.lines⟩

/-! ### Closing a session -/

/-- Settles O57: the POLL line stays while BUSY shows; on a free block it is done, and the CTRL write is accepted. -/
theorem closeSessionWaitsThenCloses : Obligations.CloseSessionWaitsThenCloses := by
  unfold Obligations.CloseSessionWaitsThenCloses
  intro s rxcrc echo ls hp hr
  have hpoll := step_of_poll hr hp
  have hctrl : (afterBlock s).ctrl = s.ctrl := congrArg Settings.ctrl (settingsOf_afterBlock hr)
  refine ⟨fun hb => ?waits, fun hb => ?closes⟩
  case waits =>
    rw [hb, if_pos rfl] at hpoll
    exact ⟨_, hpoll, hp.symm, hctrl, rfl⟩
  case closes =>
    rw [hb, if_neg Bool.false_ne_true] at hpoll
    refine ⟨_, hpoll, hctrl, rfl, fun hu => ?_⟩
    have hwrite := step_of_write (r := .ctrl) hu (by exact hb) rfl
    refine ⟨_, hwrite, ctrlOfWord_ctrlWord _, rfl, afterBlock_free (by exact hb), ?_⟩
    exact (afterBlock_ovr hu).trans (afterBlock_ovr hr)

end Sys2Proof.Machine

/-! SUPPORT. The adapter's lines in the closed loop over `step` (45_host_adapter.md R612; log 24): they wait for a free
block behind a POLL line, commit no fault of R644, and read the answer of their own method, with the obligations these
settle. -/

namespace Sys2Proof.Machine

/-! ### A step and the host's lines -/

theorem afterBlock_lines (s : State) : (afterBlock s).hostProgram = s.hostProgram := by
  cases hr : (wiresNow s).rst with
  | true => rw [afterBlock_reset s hr]; rfl
  | false => exact afterBlock_hostProgram hr

/-- A step takes its host line, except a POLL line that shows BUSY (R341; log 12). -/
theorem lines_of_step {s t : State} {l : HostLine} {ls : List HostLine} (h : step s = .next t)
    (hp : s.hostProgram = l :: ls) :
    t.hostProgram = if l = .poll ∧ (afterBlock s).status.busy = true then l :: ls else ls := by
  rw [(step_outside h).2.1, beforeHost]
  have hlines := (afterBlock_lines s).trans hp
  by_cases hl : l = .poll
  · subst hl
    simp [retireLine_of_poll hlines]
  · simp [retireLine_of_ne_poll hlines hl, hl]

theorem lines_of_step_nil {s t : State} (h : step s = .next t) (hp : s.hostProgram = []) : t.hostProgram = [] := by
  rw [(step_outside h).2.1, beforeHost, retireLine, afterBlock_lines, hp]
  exact (afterBlock_lines s).trans hp

/-- A host access other than a CMD write starts no transaction. -/
theorem hostAccess_free {p : HostPort} {s t : State} (h : hostAccess p s = .next t) (hb : s.status.busy = false)
    (hp : p.we = true → p.idx ≠ hostIdx .cmd) : t.status.busy = false := by
  rcases hostAccess_cases p s t h with ⟨_, rfl⟩ | ⟨_, _, rfl⟩ | ⟨_, hwe, u, rfl, hw⟩
  · exact hb
  · exact hb
  · rcases hw with ⟨_, _, _, hbusy, _⟩ | ⟨_, rfl⟩ | ⟨_, ht⟩ | ⟨hidx, _⟩ | ⟨hidx, _⟩
    · simp [hb] at hbusy
    · exact hb
    · rw [ht]; exact hb
    · exact absurd ((hostRegAt_eq_some_iff _ _).1 hidx) (hp hwe)
    · exact absurd ((hostRegAt_eq_some_iff _ _).1 hidx) (hp hwe)

/-- A line other than a CMD write leaves a block free that its phases left free. -/
theorem free_of_step {s t : State} {l : HostLine} {ls : List HostLine} (h : step s = .next t)
    (hp : s.hostProgram = l :: ls) (hb : (afterBlock s).status.busy = false) (hl : ∀ v, l ≠ .wr (hostIdx .cmd) v) :
    t.status.busy = false := by
  have hbefore : (beforeHost s).status.busy = false := by rwa [beforeHost, retireLine_status]
  cases hr : (wiresNow s).rst with
  | true =>
    obtain rfl : setReadData 0#32 (beforeHost s) = t := by simpa [step, cycle, hr] using h
    exact hbefore
  | false =>
    rw [step_of_no_reset hr] at h
    refine hostAccess_free h hbefore ?_
    rw [hostPortNow, hp]
    cases l with
    | wr idx v => exact fun _ hidx => hl v (by rw [← hidx]; rfl)
    | rd | idle | poll => nofun

/-! ### Lines that commit no fault -/

/-- Host lines that neither write the block nor read a result unless BUSY is known to be 0: at the start if `free`, then
until a CMD write, and again after a POLL. -/
def SafeLines : Bool → List HostLine → Prop
  | _, [] => True
  | _, .poll :: ls => SafeLines true ls
  | free, .idle :: ls => SafeLines free ls
  | free, .rd _ :: ls => free = true ∧ SafeLines free ls
  | free, .wr idx _ :: ls => free = true ∧ SafeLines (decide (idx ≠ hostIdx .cmd)) ls

theorem eq_commandLines_of_methodLines {m : Method} {ls : List HostLine} (h : methodLines m = .ok ls) :
    ∃ x, ls = commandLines (methodCommand m) x := by
  unfold methodLines at h
  split at h
  · exact ⟨_, (Except.ok.inj h).symm⟩
  · cases h

theorem safeLines_method {m : Method} {ls : List HostLine} (h : methodLines m = .ok ls) : SafeLines true ls := by
  obtain ⟨x, rfl⟩ := eq_commandLines_of_methodLines h
  cases methodCommand m <;> simp [commandLines, SafeLines, hostIdx]

theorem safeLines_openSession (addr : Byte) (settle gap maxgap : Option Word) (rxcrc echo : Bool) :
    SafeLines true (openSession addr settle gap maxgap rxcrc echo) := by
  cases settle <;> cases gap <;> cases maxgap <;> simp [openSession, tuneLine, ctrlLine, SafeLines, hostIdx]

theorem safeLines_closeSession (rxcrc echo : Bool) : SafeLines true (closeSession rxcrc echo) := by
  simp [closeSession, ctrlLine, SafeLines]

/-- The adapter's lines are behind a POLL line, or they are safe with what is known of BUSY. -/
def Guarded (ls : List HostLine) (s : State) : Prop :=
  (∃ pre, s.hostProgram = pre ++ .poll :: ls) ∨
  ∃ free, SafeLines free s.hostProgram ∧ (free = true → s.status.busy = false)

theorem guarded_adapterCall {ls : List HostLine} (h : SafeLines true ls) (s : State) :
    Guarded ls (adapterCall ls s) := by
  unfold Guarded adapterCall waitLines
  split_ifs with hfree
  · exact .inr ⟨true, h, fun _ => hfree.1⟩
  · exact .inl ⟨s.hostProgram, by simp⟩

/-- A step from safe lines leaves safe lines, with what its own line shows of BUSY. -/
theorem safeLines_step {s t : State} {free : Bool} (h : SafeLines free s.hostProgram)
    (hb : free = true → s.status.busy = false) (hstep : step s = .next t) :
    ∃ free', SafeLines free' t.hostProgram ∧ (free' = true → t.status.busy = false) := by
  cases hp : s.hostProgram with
  | nil => exact ⟨false, by rw [lines_of_step_nil hstep hp]; trivial, nofun⟩
  | cons l ls =>
    rw [hp] at h
    have hlines := lines_of_step hstep hp
    have hafter (hf : free = true) := afterBlock_free (hb hf)
    cases l with
    | poll =>
      cases hbusy : (afterBlock s).status.busy with
      | true =>
        rw [hlines, if_pos ⟨rfl, hbusy⟩]
        exact ⟨false, h, nofun⟩
      | false =>
        rw [hlines, if_neg (by simp [hbusy])]
        exact ⟨true, h, fun _ => free_of_step hstep hp hbusy nofun⟩
    | idle =>
      rw [hlines, if_neg (by simp)]
      exact ⟨free, h, fun hf => free_of_step hstep hp (hafter hf) nofun⟩
    | rd idx =>
      rw [hlines, if_neg (by simp)]
      exact ⟨free, h.2, fun hf => free_of_step hstep hp (hafter hf) nofun⟩
    | wr idx v =>
      rw [hlines, if_neg (by simp)]
      refine ⟨_, h.2, fun hne => free_of_step hstep hp (hafter h.1) ?_⟩
      rintro v' ⟨⟩
      simp at hne

/-- A step of a host whose lines wait behind a POLL: the wait goes on, or the POLL is done on a free block. -/
theorem wait_step {s t : State} {pre ls : List HostLine} (hp : s.hostProgram = pre ++ .poll :: ls)
    (hstep : step s = .next t) :
    (t.hostProgram = ls ∧ t.status.busy = false) ∨ ∃ pre', t.hostProgram = pre' ++ .poll :: ls := by
  cases pre with
  | nil =>
    have hlines := lines_of_step hstep hp
    cases hbusy : (afterBlock s).status.busy with
    | true => exact .inr ⟨[], by rw [hlines, if_pos ⟨rfl, hbusy⟩]; rfl⟩
    | false => exact .inl ⟨by rw [hlines, if_neg (by simp [hbusy])], free_of_step hstep hp hbusy nofun⟩
  | cons l pre =>
    have hlines := lines_of_step hstep hp
    split_ifs at hlines
    · exact .inr ⟨l :: pre, hlines⟩
    · exact .inr ⟨pre, hlines⟩

theorem guarded_step {ls : List HostLine} {s t : State} (h : Guarded ls s) (hsafe : SafeLines true ls)
    (hstep : step s = .next t) : Guarded ls t := by
  rcases h with ⟨pre, hp⟩ | ⟨free, hs, hb⟩
  · rcases wait_step hp hstep with ⟨hlines, hfree⟩ | hwait
    · exact .inr ⟨true, by rwa [hlines], fun _ => hfree⟩
    · exact .inl hwait
  · exact .inr (safeLines_step hs hb hstep)

theorem guarded_run {ls : List HostLine} {n : Nat} {s t : State} (h : Guarded ls s) (hsafe : SafeLines true ls)
    (hrun : Sys2Proof.core.run n s = .next t) : Guarded ls t := by
  induction n generalizing s with
  | zero => cases hrun; exact h
  | succ n ih =>
    obtain ⟨u, hstep⟩ := stepAlwaysHasNextState s
    rw [run_succ n s u hstep] at hrun
    exact ih (guarded_step h hsafe hstep) hrun

/-- The first of safe lines commits no fault (R644): where it writes or reads, the block is free. -/
theorem hostFault_of_safeLines {s : State} {free : Bool} (h : SafeLines free s.hostProgram)
    (hb : free = true → s.status.busy = false) (hne : s.hostProgram ≠ []) : hostFault s = none := by
  have hfree (hf : free = true) : hostFault s = none := by
    have hbefore : (beforeHost s).status.busy = false := by
      rw [beforeHost, retireLine_status]
      exact afterBlock_free (hb hf)
    simp [hostFault, hbefore]
  cases hp : s.hostProgram with
  | nil => exact absurd hp hne
  | cons l ls =>
    rw [hp] at h
    cases l with
    | wr idx v => exact hfree h.1
    | rd idx => exact hfree h.1
    | idle => simp [hostFault, hostPortNow, hp, hostLinePort]
    | poll => simp [hostFault, hostPortNow, hp, hostLinePort, pollPending, hostRegAt_hostIdx]

/-- Settles O54: once a line of the adapter is next, the lines no longer wait behind the POLL, so they are safe. -/
theorem adapterNeverWritesWhileBusy : Obligations.AdapterNeverWritesWhileBusy := by
  unfold Obligations.AdapterNeverWritesWhileBusy
  intro s t ls n hls hrun hne hlen
  have hsafe : SafeLines true ls := by
    rcases hls with ⟨m, hm⟩ | ⟨addr, settle, gap, maxgap, rxcrc, echo, rfl⟩ | ⟨rxcrc, echo, rfl⟩
    · exact safeLines_method hm
    · exact safeLines_openSession _ _ _ _ _ _
    · exact safeLines_closeSession _ _
  rcases guarded_run (guarded_adapterCall hsafe s) hsafe hrun with ⟨pre, hp⟩ | ⟨free, hs, hb⟩
  · rw [hp, List.length_append, List.length_cons] at hlen
    omega
  · exact hostFault_of_safeLines hs hb hne

/-! ### A method call -/

/-- A line that reads a register and collects the word, as `pendingReads` counts them. -/
def isRead : HostLine → Bool
  | .rd _ => true
  | _ => false

theorem pendingReads_eq (s : State) : pendingReads s = s.hostProgram.countP isRead := rfl

theorem collectRead_eq (l : HostLine) (t : State) (acc : List Word) :
    collectRead l t acc = acc ++ collectRead l t [] := by
  cases l <;> simp [collectRead]

/-- In a step the words collected and the reads still to come keep their sum. -/
theorem collectRead_count {s t : State} {l : HostLine} {ls : List HostLine} (hp : s.hostProgram = l :: ls)
    (h : step s = .next t) (acc : List Word) :
    (collectRead l t acc).length + t.hostProgram.countP isRead = acc.length + s.hostProgram.countP isRead := by
  rw [lines_of_step h hp, hp, List.countP_cons]
  cases l with
  | rd idx => simp [collectRead, isRead, Nat.add_assoc, Nat.add_comm]
  | wr | idle => simp [collectRead, isRead]
  | poll =>
    have hpoll : (HostLine.poll :: ls).countP isRead = ls.countP isRead := by simp [isRead]
    rw [apply_ite (List.countP isRead), hpoll, ite_self]
    simp [collectRead, isRead]

theorem runLines_step {s t : State} {l : HostLine} {ls : List HostLine} (hp : s.hostProgram = l :: ls)
    (h : step s = .next t) (fuel : Nat) (acc : List Word) :
    runLines (fuel + 1) s acc = runLines fuel t (collectRead l t acc) := by
  simp [runLines, hp, h]

theorem runLines_nil {s : State} (hp : s.hostProgram = []) (fuel : Nat) (acc : List Word) :
    runLines fuel s acc = some (acc, s) := by
  cases fuel <;> simp [runLines, hp]

/-- A run of lines to their end collects one word for each read, whatever was collected before. -/
theorem runLines_words {fuel : Nat} {s t : State} {acc words : List Word} (h : runLines fuel s acc = some (words, t)) :
    t.hostProgram = [] ∧ ∃ new, words = acc ++ new ∧ new.length = s.hostProgram.countP isRead ∧
      ∀ acc', runLines fuel s acc' = some (acc' ++ new, t) := by
  induction fuel generalizing s acc <;> cases hp : s.hostProgram
  case zero.nil | succ.nil =>
    rw [runLines_nil hp] at h
    cases h
    exact ⟨hp, [], by simp, rfl, fun acc' => by simp [runLines_nil hp]⟩
  case zero.cons => simp [runLines, hp] at h
  case succ.cons fuel ih l ls =>
    obtain ⟨u, hstep⟩ := stepAlwaysHasNextState s
    rw [runLines_step hp hstep, collectRead_eq] at h
    obtain ⟨ht, new, hwords, hlen, hany⟩ := ih h
    refine ⟨ht, collectRead l u [] ++ new, by rw [hwords, List.append_assoc], ?_, fun acc' => ?_⟩
    · have hcount := collectRead_count hp hstep []
      rw [← hp, List.length_append, hlen, hcount, List.length_nil, Nat.zero_add]
    · rw [runLines_step hp hstep, collectRead_eq, hany, List.append_assoc]

/-- A run through lines that end in a POLL reaches a free block with exactly the lines behind the POLL left. -/
theorem runLines_wait {fuel : Nat} {s t : State} {pre ls : List HostLine} {acc words : List Word}
    (hp : s.hostProgram = pre ++ .poll :: ls) (h : runLines fuel s acc = some (words, t)) :
    ∃ n k u acc', n + k = fuel ∧ Sys2Proof.core.run n s = .next u ∧ u.status.busy = false ∧ u.hostProgram = ls ∧
      runLines k u acc' = some (words, t) ∧ acc'.length = acc.length + pre.countP isRead := by
  induction fuel generalizing s acc pre with
  | zero => simp [runLines, hp] at h
  | succ fuel ih =>
    obtain ⟨u, hstep⟩ := stepAlwaysHasNextState s
    obtain ⟨l, rest, hl⟩ : ∃ l rest, s.hostProgram = l :: rest := by
      rw [hp]
      cases pre <;> simp
    rw [runLines_step hl hstep] at h
    have hcount := collectRead_count hl hstep acc
    have hpoll : List.countP isRead [.poll] = 0 := rfl
    rw [hp, List.append_cons, List.countP_append, List.countP_append, hpoll] at hcount
    rcases wait_step hp hstep with ⟨hlines, hfree⟩ | ⟨pre', hlines⟩
    · rw [hlines] at hcount
      exact ⟨1, fuel, u, _, Nat.add_comm 1 fuel, (run_one s).trans hstep, hfree, hlines, h, by omega⟩
    · rw [hlines, List.append_cons, List.countP_append, List.countP_append, hpoll] at hcount
      obtain ⟨n, k, v, acc', hn, hrun, hv, hls, hk, hlen⟩ := ih hlines h
      exact ⟨n + 1, k, v, acc', by omega, (run_succ n s u hstep).trans hrun, hv, hls, hk, by omega⟩

/-- The lines of a method read STATUS, and GET_MEASUREMENTS the three measurement registers too (R341, R611). -/
theorem countP_isRead_methodLines {m : Method} {ls : List HostLine} (h : methodLines m = .ok ls) :
    ls.countP isRead = if m = .getMeasurements then 4 else 1 := by
  obtain ⟨x, rfl⟩ := eq_commandLines_of_methodLines h
  cases m <;> rfl

/-- Settles O55: before the method's lines a call only waits, and the words read until then are those it drops. -/
theorem methodRunsOnAFreeBlock : Obligations.MethodRunsOnAFreeBlock := by
  unfold Obligations.MethodRunsOnAFreeBlock
  intro fuel m s t ls a hls hcall
  obtain ⟨words, hrun, rfl⟩ : ∃ words, runLines fuel (adapterCall ls s) [] = some (words, t) ∧
      a = methodAnswer m (words.drop (pendingReads s)) := by
    rw [callMethod, hls] at hcall
    cases hrun : runLines fuel (adapterCall ls s) [] with
    | none => simp [hrun] at hcall
    | some r =>
      simp only [hrun] at hcall
      cases hcall
      exact ⟨r.1, rfl, rfl⟩
  obtain ⟨n, k, u, acc, hn, hu, hfree, hlines, hk, hlen⟩ : ∃ n k u acc, n + k = fuel ∧
      Sys2Proof.core.run n (adapterCall ls s) = .next u ∧ u.status.busy = false ∧ u.hostProgram = ls ∧
      runLines k u acc = some (words, t) ∧ acc.length = pendingReads s := by
    by_cases hwait : s.status.busy = false ∧ s.hostProgram = []
    · have hcall : (adapterCall ls s).hostProgram = ls := by simp [adapterCall, waitLines, hwait]
      exact ⟨0, fuel, _, [], Nat.zero_add fuel, rfl, hwait.1, hcall, hrun, by simp [pendingReads_eq, hwait.2]⟩
    · have hcall : (adapterCall ls s).hostProgram = s.hostProgram ++ .poll :: ls := by
        simp [adapterCall, waitLines, hwait]
      obtain ⟨n, k, u, acc, hn, hu, hfree, hlines, hk, hlen⟩ := runLines_wait hcall hrun
      exact ⟨n, k, u, acc, hn, hu, hfree, hlines, hk, by rw [hlen, List.length_nil, Nat.zero_add, pendingReads_eq]⟩
  obtain ⟨hdone, new, rfl, hnew, hany⟩ := runLines_words hk
  refine ⟨n, k, u, new, hn, hu, hfree, hlines, hany [], ?_, ?_, hdone⟩
  · rw [← hlen, List.drop_left]
  · rw [hnew, hlines, countP_isRead_methodLines hls]

end Sys2Proof.Machine

/-! SUPPORT. The quotient of a measurement in binary64 (45_host_adapter.md R611; log 21): the exponent that normalises a
quotient, the rounding to nearest with ties to even, and the fields of the pattern, with the obligation this settles. -/

namespace Sys2Proof.Machine

/-! ### The rounding -/

/-- The rounded quotient is within half of it, and even on a tie (R603). -/
theorem roundHalfEven_nearest {num den : Nat} (hden : 0 < den) :
    2 * ((roundHalfEven num den : Int) * den - num).natAbs ≤ den ∧
      (2 * ((roundHalfEven num den : Int) * den - num).natAbs = den → roundHalfEven num den % 2 = 0) := by
  have hdiv : (num : Int) = den * (num / den : Nat) + (num % den : Nat) := by
    exact_mod_cast (Nat.div_add_mod num den).symm
  have hlt := Nat.mod_lt num hden
  have hdown : (num / den : Nat) * (den : Int) - num = -(num % den : Nat) := by rw [hdiv]; ring_nf
  have hup : ((num / den + 1 : Nat) : Int) * den - num = den - (num % den : Nat) := by
    rw [hdiv]; push_cast; ring
  unfold roundHalfEven
  dsimp only
  split_ifs with hbelow habove heven
  · rw [hdown]; omega
  · rw [hup]; omega
  · rw [hdown]; omega
  · rw [hup]; omega

theorem roundHalfEven_bounds {num den a b : Nat} (hden : 0 < den) (ha : a * den ≤ num) (hb : num < b * den) :
    a ≤ roundHalfEven num den ∧ roundHalfEven num den ≤ b := by
  have hlo : a ≤ num / den := (Nat.le_div_iff_mul_le hden).2 ha
  have hhi : num / den < b := (Nat.div_lt_iff_lt_mul hden).2 hb
  unfold roundHalfEven
  dsimp only
  split_ifs <;> omega

/-! ### The exponent -/

theorem scaleRat_le_iff (n d : Nat) (e : Int) :
    (scaleRat n d e).2 ≤ (scaleRat n d e).1 ↔ (d : ℚ) * 2 ^ e ≤ n := by
  unfold scaleRat
  split_ifs with he
  · obtain ⟨j, rfl⟩ := Int.eq_ofNat_of_zero_le he
    simp only [Int.toNat_natCast, zpow_natCast]
    exact_mod_cast Iff.rfl
  · obtain ⟨j, rfl⟩ : ∃ j : Nat, e = -j := ⟨(-e).toNat, by omega⟩
    rw [neg_neg, Int.toNat_natCast, zpow_neg, zpow_natCast, mul_inv_le_iff₀ (by positivity)]
    exact_mod_cast Iff.rfl

/-- `floorLog2` is the exponent that brings a quotient into [1, 2). -/
theorem floorLog2_spec {n d : Nat} (hn : 0 < n) (hd : 0 < d) :
    (d : ℚ) * 2 ^ floorLog2 n d ≤ n ∧ (n : ℚ) < d * 2 ^ (floorLog2 n d + 1) := by
  have hnlo : (2 : ℚ) ^ Nat.log2 n ≤ n := by exact_mod_cast Nat.log2_self_le hn.ne'
  have hnhi : (n : ℚ) < 2 ^ (Nat.log2 n + 1) := by exact_mod_cast Nat.lt_log2_self
  have hdlo : (2 : ℚ) ^ Nat.log2 d ≤ d := by exact_mod_cast Nat.log2_self_le hd.ne'
  have hdhi : (d : ℚ) < 2 ^ (Nat.log2 d + 1) := by exact_mod_cast Nat.lt_log2_self
  unfold floorLog2
  dsimp only
  split_ifs with h
  · refine ⟨(scaleRat_le_iff n d _).1 h, ?_⟩
    calc (n : ℚ) < 2 ^ (Nat.log2 n + 1) := hnhi
      _ = 2 ^ Nat.log2 d * 2 ^ ((Nat.log2 n : ℤ) - Nat.log2 d + 1) := by
          rw [← zpow_natCast, ← zpow_natCast, ← zpow_add₀ two_ne_zero]
          congr 1
          push_cast
          ring
      _ ≤ d * 2 ^ ((Nat.log2 n : ℤ) - Nat.log2 d + 1) := by gcongr
  · rw [scaleRat_le_iff, not_le] at h
    refine ⟨?_, by rwa [sub_add_cancel]⟩
    calc (d : ℚ) * 2 ^ ((Nat.log2 n : ℤ) - Nat.log2 d - 1)
        ≤ 2 ^ (Nat.log2 d + 1) * 2 ^ ((Nat.log2 n : ℤ) - Nat.log2 d - 1) := by gcongr
      _ = 2 ^ Nat.log2 n := by
          rw [← zpow_natCast, ← zpow_natCast, ← zpow_add₀ two_ne_zero]
          congr 1
          push_cast
          ring
      _ ≤ n := hnlo

/-- A measurement over 1000 lies between 2^(-10) and 2^15. -/
theorem floorLog2_measurement {n : Nat} (hn : 0 < n) (hlt : n < 2 ^ 24) :
    -10 ≤ floorLog2 n 1000 ∧ floorLog2 n 1000 ≤ 14 := by
  have hlog : Nat.log2 n < 24 := (Nat.log2_lt hn.ne').2 hlt
  have hthousand : Nat.log2 1000 = 9 := by decide
  unfold floorLog2
  dsimp only
  rw [hthousand]
  split_ifs <;> omega

/-- Scaled by its exponent, a measurement over 1000 has a quotient of 53 bits. -/
theorem measurement_scaled {n k : Nat} (hn : 0 < n) (hk : (k : Int) = 52 - floorLog2 n 1000) :
    2 ^ 52 * 1000 ≤ n * 2 ^ k ∧ n * 2 ^ k < 2 ^ 53 * 1000 := by
  obtain ⟨hlo, hhi⟩ := floorLog2_spec hn (d := 1000) (by decide)
  have hscale (j : ℤ) : (2 : ℚ) ^ (floorLog2 n 1000 + j) * 2 ^ k = 2 ^ (52 + j) := by
    rw [← zpow_natCast, ← zpow_add₀ two_ne_zero, hk]
    congr 1
    ring
  constructor
  · have h := mul_le_mul_of_nonneg_right hlo (show (0 : ℚ) ≤ 2 ^ k by positivity)
    have h0 := hscale 0
    rw [add_zero] at h0
    rw [mul_assoc, h0] at h
    have : (1000 * 2 ^ 52 : ℚ) ≤ n * 2 ^ k := by simpa using h
    exact_mod_cast (mul_comm (1000 : ℚ) (2 ^ 52)) ▸ this
  · have h := mul_lt_mul_of_pos_right hhi (show (0 : ℚ) < 2 ^ k by positivity)
    rw [mul_assoc, hscale 1] at h
    have : (n * 2 ^ k : ℚ) < 1000 * 2 ^ 53 := by simpa using h
    exact_mod_cast (mul_comm (1000 : ℚ) (2 ^ 53)) ▸ this

/-! ### The pattern -/

/-- A normalised positive pattern is its exponent field above its fraction. -/
theorem toNat_fieldsF64 {ex frac : Nat} (hex : ex < 2 ^ 11) (hfrac : frac < 2 ^ 52) :
    (fieldsF64 false ex frac).toNat = ex * 2 ^ 52 + frac := by
  have hexp : ((BitVec.ofNat 11 ex).setWidth 64 <<< 52).toNat = ex <<< 52 := by
    have hfits : ex <<< 52 < 2 ^ 64 := (Nat.shiftLeft_lt hex).trans_le (Nat.pow_le_pow_right (by decide) (by decide))
    rw [BitVec.toNat_shiftLeft, BitVec.toNat_setWidth_of_le (by decide), BitVec.toNat_ofNat, Nat.mod_eq_of_lt hex,
      Nat.mod_eq_of_lt hfits]
  have hfraction : ((BitVec.ofNat 52 frac).setWidth 64).toNat = frac := by
    rw [BitVec.toNat_setWidth_of_le (by decide), BitVec.toNat_ofNat, Nat.mod_eq_of_lt hfrac]
  have hsign : (BitVec.ofBool false).setWidth 64 <<< 63 = 0#64 := by decide
  rw [fieldsF64, hsign, BitVec.zero_or, BitVec.toNat_or, hexp, hfraction, ← Nat.shiftLeft_add_eq_or_of_lt hfrac,
    Nat.shiftLeft_eq]

/-- What R611 asks of the datum of a quotient `n / 1000`: a normalised significand `m` at the exponent `-k`, within half
a unit of the quotient, and even on a tie. -/
def Nearest (n m k : Nat) : Prop :=
  2 ^ 52 ≤ m ∧ m < 2 ^ 53 ∧ 2 * ((m : Int) * 1000 - (n : Int) * 2 ^ k).natAbs ≤ 1000 ∧
    (2 * ((m : Int) * 1000 - (n : Int) * 2 ^ k).natAbs = 1000 → m % 2 = 0)

/-- The division of a measurement by 1000, with `k` bits after the point. -/
theorem divNat_eq {n k : Nat} (hn : 0 < n) (hk : (k : Int) = 52 - floorLog2 n 1000) (hpos : 0 < k) (hle : k ≤ 62) :
    divNat n 1000 =
      if roundHalfEven (n * 2 ^ k) 1000 = 2 ^ 53 then .fin false (2 ^ 52) (-k + 1)
      else .fin false (roundHalfEven (n * 2 ^ k) 1000) (-k) := by
  have hexp : max (-1074) (floorLog2 n 1000 - 52) = -(k : Int) := by omega
  have hscale : scaleRat n 1000 (-(k : Int)) = (n * 2 ^ k, 1000) := by
    rw [scaleRat, if_neg (by omega), neg_neg, Int.toNat_natCast]
  rw [divNat, roundRat, if_neg hn.ne']
  dsimp only
  rw [hexp, hscale]
  by_cases hpow : roundHalfEven (n * 2 ^ k) 1000 = 2 ^ 53
  · rw [if_pos hpow, if_pos hpow]
    exact if_neg (by dsimp only; omega)
  · rw [if_neg hpow, if_neg hpow]
    exact if_neg (by dsimp only; omega)

/-- The quotient of a measurement: at the exponent of its 53 bits, or one higher where it rounds up to 2^53. -/
theorem divNat_measurement {n : Nat} (hn : 0 < n) (hlt : n < 2 ^ 24) :
    ∃ m k : Nat, divNat n 1000 = .fin false m (-k) ∧ k ≤ 62 ∧ Nearest n m k := by
  obtain ⟨hlo, hhi⟩ := floorLog2_measurement hn hlt
  obtain ⟨k, hk⟩ : ∃ k : Nat, (k : Int) = 52 - floorLog2 n 1000 := ⟨(52 - floorLog2 n 1000).toNat, by omega⟩
  obtain ⟨hmin, hmax⟩ := measurement_scaled hn hk
  obtain ⟨hnear, htie⟩ := roundHalfEven_nearest (num := n * 2 ^ k) (den := 1000) (by decide)
  obtain ⟨hge, hle⟩ := roundHalfEven_bounds (by decide) hmin hmax
  have hdiv := divNat_eq hn hk (by omega) (by omega)
  by_cases hpow : roundHalfEven (n * 2 ^ k) 1000 = 2 ^ 53
  · obtain ⟨j, rfl⟩ : ∃ j, k = j + 1 := ⟨k - 1, by omega⟩
    rw [if_pos hpow] at hdiv
    rw [hpow, pow_succ 2 j, ← mul_assoc] at hnear
    refine ⟨2 ^ 52, j, by rw [hdiv]; congr 1; push_cast; ring, by omega, le_rfl, by decide, ?_, fun _ => by decide⟩
    push_cast at hnear ⊢
    omega
  · rw [if_neg hpow] at hdiv
    push_cast at hnear htie
    exact ⟨_, k, hdiv, by omega, hge, lt_of_le_of_ne hle hpow, hnear, htie⟩

/-- Settles O59: the datum is the nearest one, and its pattern holds its exponent and its fraction. -/
theorem measurementQuotientIsNearest : Obligations.MeasurementQuotientIsNearest := by
  unfold Obligations.MeasurementQuotientIsNearest
  refine ⟨by decide, fun n hn hlt => ?_⟩
  obtain ⟨m, k, hdiv, hk, hmin, hmax, hnear, htie⟩ := divNat_measurement hn hlt
  refine ⟨m, k, hdiv, hmin, hmax, hnear, htie, ?_⟩
  rw [hdiv, encodeF64, if_neg (by omega), toNat_fieldsF64 (by omega) (by omega)]
  congr 2
  omega

end Sys2Proof.Machine
